-- ==== Sys2Proof/Word.lean ====
section
/-! DEFINITION. The widths of the CR16A (`00_scope.md` R7, R9): bytes, words and 18-bit addresses. -/

namespace Sys2Proof

/-- A byte, 8 bits (`00_scope.md` R9). -/
abbrev Byte := BitVec 8

/-- A word, 16 bits: a general register, the PSR image, an instruction word (`00_scope.md` R9, R17). -/
abbrev Word := BitVec 16

/-- An 18-bit byte address (`20_memory.md` R60), the width of PC, ISP and INTBASE (`10_state.md` R20). -/
abbrev Addr := BitVec 18

end Sys2Proof
end

