-- ==== Sys2Proof/Config.lean ====
section
/-! DEFINITION. What an implementation or the platform fixes (`00_scope.md` R8) and the free values: what the spec calls
unpredictable or leaves open is an opaque constant here, applied to the draw counter of the state, so that nothing can be
proved of it. -/

namespace Sys2Proof.Config

/-- TRC_VECTOR (`60_exceptions.md` R286, D5): the dispatch-table index of the trace trap. PRESUMED: the figure that held it
is lost, and the spec takes 9 from general knowledge; unsafe for programs that set PSR.T or PSR.P (log 5). -/
def trcVector : Nat := 9

/-- What a memory byte that nothing has written reads as. DESIGN CHOICE, unsafe: memory at power-up is platform-defined
(`10_state.md` R53), and the model takes 0x00 (log 31). -/
def unlistedByte : Byte := 0x00#8

/-- The n bits a byte shift with a count out of range writes (`44_shifts.md` R193, D11): free (log 11). -/
opaque freeShiftByte : Nat → Byte

/-- The n bits a word shift with a count out of range writes (`44_shifts.md` R193, D11): free (log 11). -/
opaque freeShiftWord : Nat → Word

/-- PSR.F after a TBIT with an offset out of range (`45_bits.md` R201, D11): free (log 11). -/
opaque freeTestBit : Nat → Bool

/-- PSR bits 15..12 as one read returns them (`10_state.md` R40, RESERVED_READ, D12): free (log 12). -/
opaque freeReservedBits : Nat → BitVec 4

/-- A register that a warm reset leaves unpredictable (`70_reset_and_hazards.md` R341): the draw counter, then which register
(0 to 15 the general registers, 16 ISP, 17 INTBASE): free (log 26). -/
opaque freeAfterReset : Nat → Nat → Word

/-- What a device location holds where the platform's sample does not say (`00_scope.md` R12): the draw counter, then the
address: free (log 41). -/
opaque freeDeviceByte : Nat → Nat → Byte

/-- Which of the bytes an address has held since the last serializing operation a fetch sees (`20_memory.md` R79, D20): the
draw counter, then the address: free (log 20). -/
opaque freeStaleChoice : Nat → Nat → Nat

end Sys2Proof.Config
end

