-- ==== Sys2Proof/Syntax.lean ====
section
/-! DEFINITION. The instructions of the CR16A: one constructor for each mnemonic of `spec/opcode_table.json`; the table's
several rows of one mnemonic (its formats) are the operand forms below. Operands stand in the assembler's order
(`30_encoding.md` R121). -/

namespace Sys2Proof

/-- The general registers, by the codes 0 to 15 (`10_state.md` R21). -/
inductive Reg where
  | r0 | r1 | r2 | r3 | r4 | r5 | r6 | r7 | r8 | r9 | r10 | r11 | r12 | r13 | ra | sp
  deriving DecidableEq, Repr

/-- The processor registers LPR and SPR reach (`10_state.md` R43, `46_procreg.md` R205). -/
inductive ProcReg where
  | psr | intbase | isp
  deriving DecidableEq, Repr

/-- The conditions of Bcond, Jcond and Scond (`47_jumps.md` R215). -/
inductive Cond where
  | eq | ne | cs | cc | hi | ls | gt | le | fs | fc | lo | hs | lt | ge
  deriving DecidableEq, Repr

/-- The first operand of a basic format (`30_encoding.md` R94, R95, R96, R124). -/
inductive Src where
  /-- Format RR: a register (`30_encoding.md` R94). -/
  | reg (r : Reg)
  /-- Format IS: a 5-bit immediate, to be sign-extended (`30_encoding.md` R95). -/
  | short (imm : BitVec 5)
  /-- Format IM: a 16-bit immediate in the second word (`30_encoding.md` R96). -/
  | medium (imm : Word)
  deriving DecidableEq, Repr

/-- The displacement of a branch (`30_encoding.md` R111, R112). -/
inductive Disp where
  /-- Format BR-S: 9 bits, the lowest 0 (`30_encoding.md` R111). -/
  | short (d : BitVec 9)
  /-- Format BR-M: 17 bits (`30_encoding.md` R112). -/
  | medium (d : BitVec 17)
  deriving DecidableEq, Repr

/-- The address of a load or a store (`48_loadstore.md` R246). -/
inductive Mode where
  /-- Format LS-S: `disp(base)` with a 5-bit displacement (`30_encoding.md` R105). -/
  | relShort (base : Reg) (disp : BitVec 5)
  /-- Format LS-M: `disp(base)` with an 18-bit displacement (`30_encoding.md` R107). -/
  | relMedium (base : Reg) (disp : Addr)
  /-- Format LS-F: `disp(pair+1, pair)` (`30_encoding.md` R108). -/
  | farRel (pair : Reg) (disp : Addr)
  /-- Format LS-A: an absolute address (`30_encoding.md` R109). -/
  | abs (address : Addr)
  deriving DecidableEq, Repr

/-- The words of an instruction (`30_encoding.md` R90). -/
inductive Words where
  /-- Two bytes. -/
  | one (first : Word)
  /-- Four bytes. -/
  | two (first second : Word)
  deriving DecidableEq, Repr

/-- The instructions, one constructor for each mnemonic of the opcode table (`30_encoding.md` R123, R117, R119). -/
inductive Instr where
  /-- MOVB (`40_moves.md` R141). -/
  | movb (src : Src) (dest : Reg)
  /-- MOVW (`40_moves.md` R141). -/
  | movw (src : Src) (dest : Reg)
  /-- MOVXB (`40_moves.md` R142). -/
  | movxb (src dest : Reg)
  /-- MOVZB (`40_moves.md` R143). -/
  | movzb (src dest : Reg)
  /-- ADDB (`41_arithmetic.md` R152). -/
  | addb (src : Src) (dest : Reg)
  /-- ADDW (`41_arithmetic.md` R152). -/
  | addw (src : Src) (dest : Reg)
  /-- ADDUB (`41_arithmetic.md` R151). -/
  | addub (src : Src) (dest : Reg)
  /-- ADDUW (`41_arithmetic.md` R151). -/
  | adduw (src : Src) (dest : Reg)
  /-- ADDCB (`41_arithmetic.md` R153). -/
  | addcb (src : Src) (dest : Reg)
  /-- ADDCW (`41_arithmetic.md` R153). -/
  | addcw (src : Src) (dest : Reg)
  /-- MULB (`41_arithmetic.md` R154). -/
  | mulb (src : Src) (dest : Reg)
  /-- MULW (`41_arithmetic.md` R154). -/
  | mulw (src : Src) (dest : Reg)
  /-- SUBB (`41_arithmetic.md` R155). -/
  | subb (src : Src) (dest : Reg)
  /-- SUBW (`41_arithmetic.md` R155). -/
  | subw (src : Src) (dest : Reg)
  /-- SUBCB (`41_arithmetic.md` R156). -/
  | subcb (src : Src) (dest : Reg)
  /-- SUBCW (`41_arithmetic.md` R156). -/
  | subcw (src : Src) (dest : Reg)
  /-- CMPB: `src1` is the first operand, `src2` the register of bits 8..5 (`42_compare.md` R170). -/
  | cmpb (src1 : Src) (src2 : Reg)
  /-- CMPW: `src1` is the first operand, `src2` the register of bits 8..5 (`42_compare.md` R170). -/
  | cmpw (src1 : Src) (src2 : Reg)
  /-- ANDB (`43_logical.md` R176). -/
  | andb (src : Src) (dest : Reg)
  /-- ANDW (`43_logical.md` R176). -/
  | andw (src : Src) (dest : Reg)
  /-- ORB (`43_logical.md` R177). -/
  | orb (src : Src) (dest : Reg)
  /-- ORW (`43_logical.md` R177). -/
  | orw (src : Src) (dest : Reg)
  /-- XORB (`43_logical.md` R179). -/
  | xorb (src : Src) (dest : Reg)
  /-- XORW (`43_logical.md` R179). -/
  | xorw (src : Src) (dest : Reg)
  /-- SEQ (`43_logical.md` R178). -/
  | seq (dest : Reg)
  /-- SNE (`43_logical.md` R178). -/
  | sne (dest : Reg)
  /-- SCS (`43_logical.md` R178). -/
  | scs (dest : Reg)
  /-- SCC (`43_logical.md` R178). -/
  | scc (dest : Reg)
  /-- SHI (`43_logical.md` R178). -/
  | shi (dest : Reg)
  /-- SLS (`43_logical.md` R178). -/
  | sls (dest : Reg)
  /-- SGT (`43_logical.md` R178). -/
  | sgt (dest : Reg)
  /-- SLE (`43_logical.md` R178). -/
  | sle (dest : Reg)
  /-- SFS (`43_logical.md` R178). -/
  | sfs (dest : Reg)
  /-- SFC (`43_logical.md` R178). -/
  | sfc (dest : Reg)
  /-- SLO (`43_logical.md` R178). -/
  | slo (dest : Reg)
  /-- SHS (`43_logical.md` R178). -/
  | shs (dest : Reg)
  /-- SLT (`43_logical.md` R178). -/
  | slt (dest : Reg)
  /-- SGE (`43_logical.md` R178). -/
  | sge (dest : Reg)
  /-- ASHUB (`44_shifts.md` R191). -/
  | ashub (count : Src) (dest : Reg)
  /-- ASHUW (`44_shifts.md` R191). -/
  | ashuw (count : Src) (dest : Reg)
  /-- LSHB (`44_shifts.md` R192). -/
  | lshb (count : Src) (dest : Reg)
  /-- LSHW (`44_shifts.md` R192). -/
  | lshw (count : Src) (dest : Reg)
  /-- TBIT (`45_bits.md` R200). -/
  | tbit (offset : Src) (src : Reg)
  /-- LPR (`46_procreg.md` R206). -/
  | lpr (src : Reg) (dest : ProcReg)
  /-- SPR (`46_procreg.md` R208). -/
  | spr (src : ProcReg) (dest : Reg)
  /-- BEQ (`47_jumps.md` R217). -/
  | beq (disp : Disp)
  /-- BNE (`47_jumps.md` R217). -/
  | bne (disp : Disp)
  /-- BCS (`47_jumps.md` R217). -/
  | bcs (disp : Disp)
  /-- BCC (`47_jumps.md` R217). -/
  | bcc (disp : Disp)
  /-- BHI (`47_jumps.md` R217). -/
  | bhi (disp : Disp)
  /-- BLS (`47_jumps.md` R217). -/
  | bls (disp : Disp)
  /-- BGT (`47_jumps.md` R217). -/
  | bgt (disp : Disp)
  /-- BLE (`47_jumps.md` R217). -/
  | ble (disp : Disp)
  /-- BFS (`47_jumps.md` R217). -/
  | bfs (disp : Disp)
  /-- BFC (`47_jumps.md` R217). -/
  | bfc (disp : Disp)
  /-- BLO (`47_jumps.md` R217). -/
  | blo (disp : Disp)
  /-- BHS (`47_jumps.md` R217). -/
  | bhs (disp : Disp)
  /-- BLT (`47_jumps.md` R217). -/
  | blt (disp : Disp)
  /-- BGE (`47_jumps.md` R217). -/
  | bge (disp : Disp)
  /-- BR (`47_jumps.md` R219). -/
  | br (disp : Disp)
  /-- BAL (`47_jumps.md` R218): 17-bit displacement, one form only (`30_encoding.md` R113). -/
  | bal (link : Reg) (disp : BitVec 17)
  /-- EXCP, with the 4-bit vector field (`47_jumps.md` R230). -/
  | excp (vector : BitVec 4)
  /-- JEQ (`47_jumps.md` R231). -/
  | jeq (target : Reg)
  /-- JNE (`47_jumps.md` R231). -/
  | jne (target : Reg)
  /-- JCS (`47_jumps.md` R231). -/
  | jcs (target : Reg)
  /-- JCC (`47_jumps.md` R231). -/
  | jcc (target : Reg)
  /-- JHI (`47_jumps.md` R231). -/
  | jhi (target : Reg)
  /-- JLS (`47_jumps.md` R231). -/
  | jls (target : Reg)
  /-- JGT (`47_jumps.md` R231). -/
  | jgt (target : Reg)
  /-- JLE (`47_jumps.md` R231). -/
  | jle (target : Reg)
  /-- JFS (`47_jumps.md` R231). -/
  | jfs (target : Reg)
  /-- JFC (`47_jumps.md` R231). -/
  | jfc (target : Reg)
  /-- JLO (`47_jumps.md` R231). -/
  | jlo (target : Reg)
  /-- JHS (`47_jumps.md` R231). -/
  | jhs (target : Reg)
  /-- JLT (`47_jumps.md` R231). -/
  | jlt (target : Reg)
  /-- JGE (`47_jumps.md` R231). -/
  | jge (target : Reg)
  /-- JUMP (`47_jumps.md` R233). -/
  | jump (target : Reg)
  /-- JAL (`47_jumps.md` R232). -/
  | jal (link target : Reg)
  /-- RETX (`47_jumps.md` R235). -/
  | retx
  /-- LOADB (`48_loadstore.md` R250). -/
  | loadb (src : Mode) (dest : Reg)
  /-- LOADW (`48_loadstore.md` R250). -/
  | loadw (src : Mode) (dest : Reg)
  /-- STORB (`48_loadstore.md` R251). -/
  | storb (src : Reg) (dest : Mode)
  /-- STORW (`48_loadstore.md` R251). -/
  | storw (src : Reg) (dest : Mode)
  /-- DI (`49_misc.md` R265). -/
  | di
  /-- EI (`49_misc.md` R266). -/
  | ei
  /-- NOP (`49_misc.md` R267). -/
  | nop
  /-- WAIT (`49_misc.md` R268). -/
  | wait
  /-- UND: a first word of Table A-2, which takes the UND trap (`30_encoding.md` R117). -/
  | und (word : Word)
  /-- UNSPECIFIED: a first word the spec gives no behaviour, and its second word where it has one (`30_encoding.md` R91, R119,
  D7). -/
  | unspecified (words : Words)
  deriving DecidableEq, Repr

end Sys2Proof
end

