-- ==== Sys2Proof/Machine/State.lean ====
section
/-! DEFINITION. The state of the machine as plain data (`10_state.md` R20, R44, R50 to R52), the reasons a step stops, and the
machine right after reset (`10_state.md` R53). -/

namespace Sys2Proof.Machine

/-- The sixteen general registers, 16 bits each (`10_state.md` R21). -/
structure Regs where
  r0 : Word
  r1 : Word
  r2 : Word
  r3 : Word
  r4 : Word
  r5 : Word
  r6 : Word
  r7 : Word
  r8 : Word
  r9 : Word
  r10 : Word
  r11 : Word
  r12 : Word
  r13 : Word
  ra : Word
  sp : Word
  deriving DecidableEq, Repr

/-- The nine fields of the PSR (`10_state.md` R30). Bits 3, 4 and 8 are constant 0 and bits 15..12 hold no state (R40). -/
structure Psr where
  /-- Carry or borrow (`10_state.md` R31). -/
  c : Bool
  /-- Trace enable (`10_state.md` R32). -/
  t : Bool
  /-- Low, unsigned less (`10_state.md` R33). -/
  l : Bool
  /-- The general flag: overflow, tested bit (`10_state.md` R34). -/
  f : Bool
  /-- Zero, equal (`10_state.md` R35). -/
  z : Bool
  /-- Negative, signed less (`10_state.md` R36). -/
  n : Bool
  /-- Local maskable interrupt enable (`10_state.md` R37). -/
  e : Bool
  /-- Trace trap pending (`10_state.md` R38). -/
  p : Bool
  /-- Global maskable interrupt enable (`10_state.md` R39). -/
  i : Bool
  deriving DecidableEq, Repr

/-- What the platform put at an address (MEM_MAP, `92_eei_decisions.md` D9). -/
inductive RegionKind where
  /-- Memory that can be read and written. -/
  | ram
  /-- Memory that can be read; a write is refused (D9). -/
  | rom
  /-- A device: what it holds is an input (`00_scope.md` R12), and it sees the accesses made to it (`20_memory.md` R75). -/
  | device
  /-- Nothing. -/
  | absent
  deriving DecidableEq, Repr

/-- `size` bytes from address `base` on, all of one kind (MEM_MAP, D9). -/
structure Region where
  base : Nat
  size : Nat
  kind : RegionKind
  deriving DecidableEq, Repr

/-- A bus access that a device sees (`20_memory.md` R75, `60_exceptions.md` R293). A word access is one entry: how its bytes
appear on the bus is not stated (D25; log 25). -/
inductive BusAccess where
  /-- A data read of a byte. -/
  | readByte (a : Addr)
  /-- A data read of a word. -/
  | readWord (a : Addr)
  /-- A data write of a byte. -/
  | writeByte (a : Addr) (v : Byte)
  /-- A data write of a word. -/
  | writeWord (a : Addr) (v : Word)
  /-- An interrupt-acknowledge read (D30). -/
  | acknowledge (a : Addr)
  deriving DecidableEq, Repr

/-- What the platform presents at one step boundary (`00_scope.md` R12, `10_state.md` R50, D13). -/
structure Sample where
  /-- RESET_REQ: the reset signal (`70_reset_and_hazards.md` R340). -/
  reset : Bool
  /-- NMI_REQ: the non-maskable interrupt request (`60_exceptions.md` R291). -/
  nmi : Bool
  /-- The ICU's maskable request (`60_exceptions.md` R290). -/
  irq : Bool
  /-- ISE_REQ: the In-System Emulator interrupt request (`60_exceptions.md` R292). -/
  ise : Bool
  /-- The byte the ICU returns to the acknowledge read at 0FE00 (`60_exceptions.md` R290, D30). -/
  icuByte : Byte
  /-- What the device locations hold from this boundary to the next: addresses with their bytes, the first entry of an address
  counting; a location not listed holds a free value (`00_scope.md` R12, D9; log 41). -/
  devices : List Host.Cell
  deriving DecidableEq, Repr

/-- The state between two steps. -/
structure State where
  /-- The general registers (`10_state.md` R21). -/
  regs : Regs
  /-- The program counter: bits 17 and 0 always 0 (`10_state.md` R25). -/
  pc : Addr
  /-- The interrupt stack pointer: bits 17, 16 and 0 always 0 (`10_state.md` R28). -/
  isp : Addr
  /-- The interrupt base register: bits 17, 16 and 0 always 0 (`10_state.md` R29). -/
  intbase : Addr
  /-- The processor status register (`10_state.md` R30). -/
  psr : Psr
  /-- The configuration register, all of it reserved (`10_state.md` R42; log 40). -/
  cfg : Word
  /-- Memory (`10_state.md` R44): the bytes that differ from what an unlisted address reads as, addresses strictly rising. -/
  mem : List Host.Cell
  /-- The Waiting for Interrupt state (`10_state.md` R52). -/
  waiting : Bool
  /-- Hidden prefetch state (`10_state.md` R51, `20_memory.md` R79): the bytes stored since the last serializing operation,
  newest first, each with its address and the byte it held before. -/
  unserialized : List Host.Cell
  /-- MEM_MAP (D9), the model's own field: an address in no region is RAM (log 9). -/
  memMap : List Region
  /-- What the platform will present at the coming step boundaries (D13), the model's own field: past the end of the list
  nothing is requested (log 13). -/
  inputs : List Sample
  /-- What the device locations hold during this step, from the boundary's sample (`00_scope.md` R12, D9; log 41). -/
  devices : List Host.Cell
  /-- The data accesses to devices and the acknowledge cycles made so far, newest first (`20_memory.md` R75, D30), the model's
  own field (logs 30, 41). -/
  bus : List BusAccess
  /-- The draw counter, the model's own field: the free values of `Config` are applied to it, and each step advances it
  (log 34). -/
  draws : Nat
  deriving DecidableEq, Repr

/-- The faults: none. The hardware has no event but its nine exceptions, which are taken (`60_exceptions.md` R288), and where
the spec gives no effect it refuses. -/
inductive Fault where
  deriving DecidableEq, Repr

/-- The refusals: the step is outside the domain in which the spec describes the hardware (`92_eei_decisions.md`). -/
inductive Refusal where
  /-- Raised by `exec` for an instruction without a meaning, by its mnemonic. Safe. -/
  | notModelled (mnemonic : String)
  /-- Raised by UNSPECIFIED: a first word neither defined nor in Table A-2 (`30_encoding.md` R119, D7; log 7). Safe. -/
  | unspecifiedEncoding
  /-- Raised by a fetch, load, store, push, pop or table read of a byte in 0FC00..0FFFF hex (`20_memory.md` R72, D8; log 8).
  Safe. -/
  | reservedRange
  /-- Raised by an access to an address where the platform put nothing (`20_memory.md` R71, D9; log 36). Safe. -/
  | absentAddress
  /-- Raised by a write to read-only memory (D9; log 36). Safe. -/
  | romWrite
  /-- Raised by a word access at address 3FFFF hex, whose second byte would lie at 40000 hex, outside the address space
  (`20_memory.md` R62, R63, `48_loadstore.md` R252, D10; log 10). Safe. -/
  | beyondAddressSpace
  /-- Raised by exception entry with ISP below 4 and by RETX with ISP above FFFC hex (`60_exceptions.md` R296, `47_jumps.md`
  R235, D15; log 15). Safe. -/
  | interruptStackBounds
  /-- Raised by the fetch of a 4-byte instruction at 1FFFE hex (`10_state.md` R27, D10; log 10). Safe. -/
  | secondWordOutsideProgram
  deriving DecidableEq, Repr

/-- The PSR after reset: E is 1, every other field 0 (`10_state.md` R53). -/
def Psr.afterReset : Psr :=
  { c := false, t := false, l := false, f := false, z := false, n := false, e := true, p := false, i := false }

/-- All general registers zero: the power-up values of the model. DESIGN CHOICE, unsafe: the spec calls them unpredictable
(`10_state.md` R53; log 21). -/
def Regs.zero : Regs := ⟨0, 0, 0, 0, 0, 0, 0, 0, 0, 0, 0, 0, 0, 0, 0, 0⟩

/-- The machine right after the reset of power-up (`10_state.md` R53, `70_reset_and_hazards.md` R342). The spec gives the PC,
the PSR, CFG and the waiting state. DESIGN CHOICE, unsafe: the general registers and INTBASE are 0 (log 21), ISP is 08000 hex
(log 22), memory lists nothing (log 31), and the model's own fields are empty (logs 9, 13, 30, 34, 41). -/
def State.reset : State :=
  { regs := Regs.zero
    pc := 0x00000#18
    isp := 0x08000#18
    intbase := 0x00000#18
    psr := Psr.afterReset
    cfg := 0x0000#16
    mem := []
    waiting := false
    unserialized := []
    memMap := []
    inputs := []
    devices := []
    bus := []
    draws := 0 }

end Sys2Proof.Machine
end

