-- ==== Sys2Proof/Machine/Memory.lean ====
section
/-! DEFINITION. Memory as data: reading and writing one byte of the list, its canonical form, and which accesses of an
address the spec gives a meaning (`20_memory.md` R60 to R63, R71, R72, D8 to D10). -/

namespace Sys2Proof.Machine

/-- The outcome of a part of a step: a value, or the stop the whole step ends in. -/
abbrev Res (α : Type) := Host.Outcome α Fault Refusal

/-- Go on with the value, or stop as the first part stopped. -/
def andThen {α β : Type} (x : Res α) (k : α → Res β) : Res β :=
  match x with
  | .next a => k a
  | .fault r => .fault r
  | .refused r => .refused r

/-- The byte a list of cells holds at an address; an unlisted address reads as `Config.unlistedByte` (log 31). -/
def readCell : List Host.Cell → Nat → Byte
  | [], _ => Config.unlistedByte
  | (k, b) :: rest, a => if a < k then Config.unlistedByte else if a = k then b else readCell rest a

/-- Write one byte, keeping the canonical form: the value an unlisted address reads as removes the entry. -/
def writeCell : List Host.Cell → Nat → Byte → List Host.Cell
  | [], a, v => if v = Config.unlistedByte then [] else [(a, v)]
  | (k, b) :: rest, a, v =>
    if a < k then (if v = Config.unlistedByte then (k, b) :: rest else (a, v) :: (k, b) :: rest)
    else if a = k then (if v = Config.unlistedByte then rest else (a, v) :: rest)
    else (k, b) :: writeCell rest a v

/-- The canonical form from a bound on: addresses at least `low`, strictly rising, below 2^18 (`20_memory.md` R60), and no
entry equal to what an unlisted address reads as. -/
def cellsFrom (low : Nat) : List Host.Cell → Bool
  | [] => true
  | (k, b) :: rest => decide (low ≤ k) && decide (k < 2 ^ 18) && b != Config.unlistedByte && cellsFrom (k + 1) rest

/-- The canonical form of memory. -/
def Memory.wf (m : List Host.Cell) : Bool := cellsFrom 0 m

/-- The reserved range 0FC00..0FFFF hex (`20_memory.md` R71, R72). -/
def isReserved (a : Addr) : Bool := decide (0x0FC00 ≤ a.toNat) && decide (a.toNat ≤ 0x0FFFF)

/-- What the platform put at an address: the first region that holds it, else RAM (D9; log 9). -/
def regionKind : List Region → Nat → RegionKind
  | [], _ => .ram
  | r :: rest, a => if r.base ≤ a ∧ a < r.base + r.size then r.kind else regionKind rest a

/-- Read or write: an instruction fetch reads. -/
inductive Access where
  | read
  | write
  deriving DecidableEq, Repr

/-- Whether an address is a device's (MEM_MAP, D9). -/
def isDevice (map : List Region) (a : Addr) : Bool := decide (regionKind map a.toNat = .device)

/-- Whether one byte may be accessed (`20_memory.md` R72, D8, D9; logs 8, 36). -/
def checkAccess (s : State) (acc : Access) (a : Addr) : Res Unit :=
  if isReserved a then .refused .reservedRange
  else
    match regionKind s.memMap a.toNat, acc with
    | .ram, _ => .next ()
    | .rom, .read => .next ()
    | .rom, .write => .refused .romWrite
    | .device, _ => .next ()
    | .absent, _ => .refused .absentAddress

/-- Whether the two bytes of a word at `a` may be accessed: the byte at 3FFFF hex has no successor (`20_memory.md` R62, R63,
D10; log 10). -/
def checkWord (s : State) (acc : Access) (a : Addr) : Res Unit :=
  if a = 0x3FFFF#18 then .refused .beyondAddressSpace
  else andThen (checkAccess s acc a) fun _ => checkAccess s acc (a + 1#18)

/-- What a device location holds: the byte the platform's sample lists, else a free value (`00_scope.md` R12; log 41). -/
def deviceByte (cells : List Host.Cell) (draw : Nat) (a : Nat) : Byte :=
  match cells with
  | [] => Config.freeDeviceByte draw a
  | (k, b) :: rest => if k = a then b else deviceByte rest draw a

/-- The byte an address holds: memory's, or the device's. -/
def State.byteAt (s : State) (a : Addr) : Byte :=
  if isDevice s.memMap a then deviceByte s.devices s.draws a.toNat else readCell s.mem a.toNat

/-- The little-endian word an address and the next hold (`20_memory.md` R61, R62). -/
def State.wordAt (s : State) (a : Addr) : Word := s.byteAt (a + 1#18) ++ s.byteAt a

/-- Store one byte. Memory changes, and what the byte held before stays visible to an instruction fetch until the next
serializing operation (`20_memory.md` R79; log 20); what a device holds is not the core's to change (`00_scope.md` R12). -/
def State.putByte (s : State) (a : Addr) (v : Byte) : State :=
  { s with
    mem := if isDevice s.memMap a then s.mem else writeCell s.mem a.toNat v
    unserialized := if isDevice s.memMap a then s.unserialized else (a.toNat, s.byteAt a) :: s.unserialized }

/-- Store a word, its low byte at the address, its high byte at the next (`20_memory.md` R63). -/
def State.putWord (s : State) (a : Addr) (v : Word) : State :=
  (s.putByte a (v.extractLsb' 0 8)).putByte (a + 1#18) (v.extractLsb' 8 8)

/-- Whether a device sees a bus access: one of its bytes is a device's, or it is an acknowledge cycle. -/
def BusAccess.isSeen (map : List Region) : BusAccess → Bool
  | .readByte a => isDevice map a
  | .readWord a => isDevice map a || isDevice map (a + 1#18)
  | .writeByte a _ => isDevice map a
  | .writeWord a _ => isDevice map a || isDevice map (a + 1#18)
  | .acknowledge _ => true

/-- What an access adds to the record of what devices have seen. -/
def BusAccess.seen (e : BusAccess) (map : List Region) : List BusAccess := if e.isSeen map then [e] else []

/-- A bus access is made: devices see it, in program order (`20_memory.md` R75; logs 30, 41). -/
def State.access (s : State) (e : BusAccess) : State := { s with bus := e.seen s.memMap ++ s.bus }

/-- `MemRead(a, 1)`: the byte, and the state after the access (`20_memory.md` R62). -/
def memRead8 (s : State) (a : Addr) : Res (Byte × State) :=
  andThen (checkAccess s .read a) fun _ => .next (s.byteAt a, s.access (.readByte a))

/-- `MemRead(a, 2)`: the word, and the state after the access (`20_memory.md` R62). -/
def memRead16 (s : State) (a : Addr) : Res (Word × State) :=
  andThen (checkWord s .read a) fun _ => .next (s.wordAt a, s.access (.readWord a))

/-- `MemWrite(a, 1, v)` (`20_memory.md` R63). -/
def memWrite8 (s : State) (a : Addr) (v : Byte) : Res State :=
  andThen (checkAccess s .write a) fun _ => .next ((s.access (.writeByte a v)).putByte a v)

/-- `MemWrite(a, 2, v)` (`20_memory.md` R63). -/
def memWrite16 (s : State) (a : Addr) (v : Word) : Res State :=
  andThen (checkWord s .write a) fun _ => .next ((s.access (.writeWord a v)).putWord a v)

end Sys2Proof.Machine
end

