-- ==== Sys2Proof/Machine/Flags.lean ====
section
/-! DEFINITION. The PSR as a word (`10_state.md` R30, `46_procreg.md` R209), the flag computations (`41_arithmetic.md` R157,
`42_compare.md` R170, `45_bits.md` R200) and the conditions (`47_jumps.md` R215). -/

namespace Sys2Proof.Machine

/-! ### The PSR image -/

/-- The PSR as a read returns it: the nine fields in their bits, bits 3, 4 and 8 zero, bits 15..12 the value `reserved` that
this read draws (`10_state.md` R30, R40, `46_procreg.md` R209; logs 6, 12). -/
def Psr.image (p : Psr) (reserved : BitVec 4) : Word :=
  reserved ++ BitVec.ofBool p.i ++ BitVec.ofBool p.p ++ BitVec.ofBool p.e ++ 0#1 ++ BitVec.ofBool p.n ++
    BitVec.ofBool p.z ++ BitVec.ofBool p.f ++ 0#2 ++ BitVec.ofBool p.l ++ BitVec.ofBool p.t ++ BitVec.ofBool p.c

/-- The PSR a written word leaves: nine fields; bits 3, 4, 8 and 15..12 store nothing (`46_procreg.md` R209, D27; log 27). -/
def Psr.ofImage (w : Word) : Psr :=
  { c := w.getLsbD 0, t := w.getLsbD 1, l := w.getLsbD 2, f := w.getLsbD 5, z := w.getLsbD 6, n := w.getLsbD 7,
    e := w.getLsbD 9, p := w.getLsbD 10, i := w.getLsbD 11 }

/-! ### Addition and subtraction (`41_arithmetic.md` R157, D29; log 29) -/

/-- `(A + B + c) mod 2^n`. -/
def addResult {n : Nat} (a b : BitVec n) (c : Bool) : BitVec n := BitVec.ofNat n (a.toNat + b.toNat + c.toNat)

/-- The carry of an addition: the unsigned sum is at least 2^n. -/
def addCarry {n : Nat} (a b : BitVec n) (c : Bool) : Bool := decide (2 ^ n ≤ a.toNat + b.toNat + c.toNat)

/-- A signed value outside -2^(n-1) .. 2^(n-1)-1. -/
def outsideSigned (n : Nat) (x : Int) : Bool := decide (x < -2 ^ (n - 1)) || decide (2 ^ (n - 1) ≤ x)

/-- The overflow of an addition: the signed sum does not fit. -/
def addOverflow {n : Nat} (a b : BitVec n) (c : Bool) : Bool := outsideSigned n (a.toInt + b.toInt + c.toNat)

/-- `(A - B - c) mod 2^n`. -/
def subResult {n : Nat} (a b : BitVec n) (c : Bool) : BitVec n := BitVec.ofInt n (a.toInt - b.toInt - c.toNat)

/-- The borrow of a subtraction: A is below B + c as unsigned integers. -/
def subBorrow {n : Nat} (a b : BitVec n) (c : Bool) : Bool := decide (a.toNat < b.toNat + c.toNat)

/-- The overflow of a subtraction: the signed difference does not fit. -/
def subOverflow {n : Nat} (a b : BitVec n) (c : Bool) : Bool := outsideSigned n (a.toInt - b.toInt - c.toNat)

/-- PSR.C and PSR.F are written, nothing else (`41_arithmetic.md` R158). -/
def Psr.withCarryOverflow (p : Psr) (c f : Bool) : Psr := { p with c := c, f := f }

/-! ### Comparison (`42_compare.md` R170) -/

/-- The PSR after a comparison of `src1` with `src2`: Z equal, N `src1` greater as signed, L `src1` greater as unsigned. -/
def Psr.compared {n : Nat} (p : Psr) (src1 src2 : BitVec n) : Psr :=
  { p with z := decide (src1 = src2), n := decide (src2.toInt < src1.toInt), l := decide (src2.toNat < src1.toNat) }

/-! ### Bit test (`45_bits.md` R200) -/

/-- PSR.F is written, nothing else. -/
def Psr.withF (p : Psr) (f : Bool) : Psr := { p with f := f }

/-! ### Conditions (`47_jumps.md` R215) -/

/-- The truth of a condition on the PSR. -/
def condHolds (c : Cond) (p : Psr) : Bool :=
  match c with
  | .eq => p.z
  | .ne => !p.z
  | .cs => p.c
  | .cc => !p.c
  | .hi => p.l
  | .ls => !p.l
  | .gt => p.n
  | .le => !p.n
  | .fs => p.f
  | .fc => !p.f
  | .lo => !p.l && !p.z
  | .hs => p.l || p.z
  | .lt => !p.n && !p.z
  | .ge => p.n || p.z

end Sys2Proof.Machine
end

