-- ==== Sys2Proof/Machine/Operands.lean ====
section
/-! DEFINITION. Reading and writing the general registers, the values of the operand forms and their lengths, effective
addresses, branch targets and code pointers, and the shift operation. -/

namespace Sys2Proof.Machine

/-! ### General registers (`10_state.md` R21, R23) -/

/-- The value of a register. -/
def Regs.get (g : Regs) : Reg → Word
  | .r0 => g.r0
  | .r1 => g.r1
  | .r2 => g.r2
  | .r3 => g.r3
  | .r4 => g.r4
  | .r5 => g.r5
  | .r6 => g.r6
  | .r7 => g.r7
  | .r8 => g.r8
  | .r9 => g.r9
  | .r10 => g.r10
  | .r11 => g.r11
  | .r12 => g.r12
  | .r13 => g.r13
  | .ra => g.ra
  | .sp => g.sp

/-- The registers with one of them written. -/
def Regs.set (g : Regs) (r : Reg) (v : Word) : Regs :=
  match r with
  | .r0 => { g with r0 := v }
  | .r1 => { g with r1 := v }
  | .r2 => { g with r2 := v }
  | .r3 => { g with r3 := v }
  | .r4 => { g with r4 := v }
  | .r5 => { g with r5 := v }
  | .r6 => { g with r6 := v }
  | .r7 => { g with r7 := v }
  | .r8 => { g with r8 := v }
  | .r9 => { g with r9 := v }
  | .r10 => { g with r10 := v }
  | .r11 => { g with r11 := v }
  | .r12 => { g with r12 := v }
  | .r13 => { g with r13 := v }
  | .ra => { g with ra := v }
  | .sp => { g with sp := v }

/-- `x[i]`: all 16 bits of a general register (`00_scope.md` R14). -/
def State.reg (s : State) (r : Reg) : Word := s.regs.get r

/-- `x[i] <- v`. -/
def State.setReg (s : State) (r : Reg) (v : Word) : State := { s with regs := s.regs.set r v }

/-- `xb[i]`: the low byte of a general register (`10_state.md` R23). -/
def State.regByte (s : State) (r : Reg) : Byte := (s.reg r).extractLsb' 0 8

/-- `xb[i] <- v`: bits 15..8 keep their value (`10_state.md` R23). -/
def State.setRegByte (s : State) (r : Reg) (v : Byte) : State := s.setReg r ((s.reg r).extractLsb' 8 8 ++ v)

/-- The state with another PSR. -/
def State.setPsr (s : State) (p : Psr) : State := { s with psr := p }

/-- The state with another PC. -/
def State.setPc (s : State) (t : Addr) : State := { s with pc := t }

/-- The register of the next higher code, which holds bits 17..16 of a far-relative base (`48_loadstore.md` R248). SP has no
successor and is no base pair (`30_encoding.md` R108): the value for it is never used by a well-formed instruction (log 39). -/
def nextReg : Reg → Reg
  | .r0 => .r1
  | .r1 => .r2
  | .r2 => .r3
  | .r3 => .r4
  | .r4 => .r5
  | .r5 => .r6
  | .r6 => .r7
  | .r7 => .r8
  | .r8 => .r9
  | .r9 => .r10
  | .r10 => .r11
  | .r11 => .r12
  | .r12 => .r13
  | .r13 => .ra
  | .ra => .sp
  | .sp => .sp

/-! ### The first operand of the basic formats (`30_encoding.md` R124) -/

/-- The word value of the operand: a register, the sign-extended short immediate, or the second word. -/
def srcWord (s : State) : Src → Word
  | .reg r => s.reg r
  | .short imm => imm.signExtend 16
  | .medium imm => imm

/-- The byte value of the operand: the low byte of its word value (`30_encoding.md` R124; the upper byte of a medium
immediate is ignored, D24, log 24). -/
def srcByte (s : State) (src : Src) : Byte := (srcWord s src).extractLsb' 0 8

/-- The length in bytes of an instruction of the basic formats (`30_encoding.md` R91). -/
def srcLen : Src → Nat
  | .reg _ => 2
  | .short _ => 2
  | .medium _ => 4

/-! ### The program counter (`10_state.md` R25 to R27, `47_jumps.md` R216, R234) -/

/-- What a write of the PC stores: bits 17 and 0 forced to 0 (`10_state.md` R25). -/
def pcForce (t : Addr) : Addr := 0#1 ++ t.extractLsb' 1 16 ++ 0#1

/-- The address of the next sequential instruction, `len` bytes on (`10_state.md` R27, D4; log 4). -/
def nextPc (pc : Addr) (len : Nat) : Addr := pcForce (pc + BitVec.ofNat 18 len)

/-- A code pointer: bits 16..1 of a code address (`47_jumps.md` R234). -/
def codePointer (pc : Addr) : Word := pc.extractLsb' 1 16

/-- The code address of a code pointer (`47_jumps.md` R231, R234). -/
def ofCodePointer (v : Word) : Addr := 0#1 ++ v ++ 0#1

/-- A branch displacement, sign-extended to 18 bits (`30_encoding.md` R110). -/
def dispValue : Disp → Addr
  | .short d => d.signExtend 18
  | .medium d => d.signExtend 18

/-- The length in bytes of a Bcond or BR (`30_encoding.md` R91). -/
def dispLen : Disp → Nat
  | .short _ => 2
  | .medium _ => 4

/-- The target of a branch: the address of the branch plus the displacement, bits 17 and 0 cleared (`47_jumps.md` R216).
An odd medium displacement is executed with its bit 0 cleared (D17; log 17). -/
def branchTarget (pc disp : Addr) : Addr := pcForce (pc + disp)

/-! ### Effective addresses (`48_loadstore.md` R246 to R249) -/

/-- The effective address of a load or store, modulo 2^18 (D2, D3; logs 2, 3). -/
def effAddr (s : State) : Mode → Addr
  | .relShort base d => (s.reg base).setWidth 18 + d.setWidth 18
  | .relMedium base d => (s.reg base).setWidth 18 + d
  | .farRel pair d => ((s.reg (nextReg pair)).extractLsb' 0 2 ++ s.reg pair) + d
  | .abs a => a

/-- The length in bytes of a load or store (`30_encoding.md` R91). -/
def modeLen : Mode → Nat
  | .relShort _ _ => 2
  | .relMedium _ _ => 4
  | .farRel _ _ => 4
  | .abs _ => 4

/-! ### Shifts (`44_shifts.md` R190 to R193) -/

/-- A count outside `-(n-1) .. n-1` (`44_shifts.md` R190). -/
def countOutOfRange (n : Nat) (k : Int) : Bool := decide (k < -((n : Int) - 1)) || decide ((n : Int) - 1 < k)

/-- The arithmetic shift: left for a positive count, right with sign fill for a negative one; the result `free` where the
count is out of range (`44_shifts.md` R191, R193). -/
def arithShift {n : Nat} (v : BitVec n) (k : Int) (free : BitVec n) : BitVec n :=
  if countOutOfRange n k then free else if 0 ≤ k then v <<< k.toNat else v.sshiftRight (-k).toNat

/-- The logical shift: zeros come in on either side (`44_shifts.md` R192, R193). -/
def logicShift {n : Nat} (v : BitVec n) (k : Int) (free : BitVec n) : BitVec n :=
  if countOutOfRange n k then free else if 0 ≤ k then v <<< k.toNat else v >>> (-k).toNat

/-! ### Dedicated address registers (`10_state.md` R28, R29) -/

/-- What LPR stores in ISP or INTBASE: bits 15..1 of the word (`46_procreg.md` R206). -/
def dedicatedOfWord (v : Word) : Addr := 0#2 ++ v.extractLsb' 1 15 ++ 0#1

/-- What SPR reads from ISP or INTBASE: bits 15..0 (`46_procreg.md` R208). -/
def wordOfDedicated (a : Addr) : Word := a.extractLsb' 0 16

end Sys2Proof.Machine
end

