-- ==== Sys2Proof/Machine/Ops.lean ====
section
/-! DEFINITION. The operations that whole instructions and the step share: sequential advance, taking an exception
(`60_exceptions.md` R296), returning from one (`47_jumps.md` R235), reset (`70_reset_and_hazards.md` R341), and what happens at
a step boundary (`60_exceptions.md` R305). -/

namespace Sys2Proof.Machine

/-! ### Sequential advance -/

/-- `pc <- next_pc`: the instruction of `len` bytes is complete (`10_state.md` R27). -/
def State.advance (s : State) (len : Nat) : State := { s with pc := nextPc s.pc len }

/-- Everything stored is visible to the next fetch (`20_memory.md` R78, `70_reset_and_hazards.md` R347). -/
def State.serialize (s : State) : State := { s with unserialized := [] }

/-! ### Exceptions -/

/-- The nine exceptions (`60_exceptions.md` R280); a maskable interrupt with the byte its acknowledge read returns. -/
inductive Exc where
  | nmi
  | maskable (icuByte : Byte)
  | ise
  | trc
  | svc
  | dvz
  | flg
  | bpt
  | und
  deriving DecidableEq, Repr

/-- The dispatch-table index of an exception (`60_exceptions.md` R281, R282 to R292). The core uses whatever byte the ICU
returns: no check of the promised 16..127 is described (R290, D16; log 16). -/
def excVector : Exc → Nat
  | .nmi => 1
  | .maskable icuByte => icuByte.toNat
  | .ise => 15
  | .trc => Config.trcVector
  | .svc => 5
  | .dvz => 6
  | .flg => 7
  | .bpt => 8
  | .und => 10

/-- Interrupts and traps (`60_exceptions.md` R280). -/
def excIsInterrupt : Exc → Bool
  | .nmi => true
  | .maskable _ => true
  | .ise => true
  | _ => false

/-- The address of the interrupt-acknowledge bus cycle (`60_exceptions.md` R290 to R293, C14); traps make none. -/
def excAckAddr : Exc → Option Addr
  | .nmi => some 0x0FF00#18
  | .maskable _ => some 0x0FE00#18
  | .ise => some 0x0FC00#18
  | _ => none

/-- The PSR an exception saves: TRC clears P before saving (`60_exceptions.md` R297). -/
def savedPsr (k : Exc) (p : Psr) : Psr :=
  match k with
  | .trc => { p with p := false }
  | _ => p

/-- The PSR the handler runs with: P and T cleared, I too for an interrupt (`60_exceptions.md` R297). -/
def handlerPsr (k : Exc) (p : Psr) : Psr :=
  if excIsInterrupt k then { p with p := false, t := false, i := false } else { p with p := false, t := false }

/-- The address of an exception's dispatch-table entry, `INTBASE + 2 * vector` (`60_exceptions.md` R281, R296). -/
def dispatchAddr (k : Exc) (s : State) : Addr := s.intbase + BitVec.ofNat 18 (2 * excVector k)

/-- The acknowledge cycle of an interrupt is made (`60_exceptions.md` R293, D30; log 30). -/
def State.acknowledge (s : State) (k : Exc) : State :=
  { s with bus := ((excAckAddr k).map BusAccess.acknowledge).toList ++ s.bus }

/-- Taking an exception: ISP drops by 4, the PC's bits 16..1 and the PSR image above them are pushed, the PSR changes, the
acknowledge cycle of an interrupt is made, the PC is loaded from the dispatch table, waiting ends, and the core serializes.
The saved PC is the PC the state holds, which is the address R297 asks for (`60_exceptions.md` R296, R297, R298; logs 14, 15,
16, 30, 37). -/
def enter (k : Exc) (s : State) : Res State :=
  if s.isp.toNat < 4 then .refused .interruptStackBounds
  else
    andThen (memWrite16 { s with isp := s.isp - 4#18 } (s.isp - 4#18) (codePointer s.pc)) fun s1 =>
    andThen (memWrite16 s1 (s.isp - 4#18 + 2#18) ((savedPsr k s.psr).image (Config.freeReservedBits s.draws))) fun s2 =>
    andThen (memRead16 (s2.acknowledge k) (dispatchAddr k s2)) fun handler =>
    .next ({ handler.2 with psr := handlerPsr k s.psr, pc := ofCodePointer handler.1, waiting := false }).serialize

/-- Returning from an exception: the PC and then the PSR are popped and ISP rises by 4; the core serializes
(`47_jumps.md` R235, C7; log 15). -/
def returnFromException (s : State) : Res State :=
  if 0xFFFC < s.isp.toNat then .refused .interruptStackBounds
  else
    andThen (memRead16 s s.isp) fun savedPc =>
    andThen (memRead16 savedPc.2 (s.isp + 2#18)) fun savedPsr =>
    .next ({ savedPsr.2 with
      isp := s.isp + 4#18
      psr := Psr.ofImage savedPsr.1
      pc := ofCodePointer savedPc.1 }).serialize

/-! ### Reset (`70_reset_and_hazards.md` R340, R341) -/

/-- The general registers after a reset: R0 the PC's bits 16..1, R1 the PSR image, the others free
(`70_reset_and_hazards.md` R341; log 26). -/
def resetRegs (s : State) : Regs :=
  { r0 := codePointer s.pc
    r1 := s.psr.image (Config.freeReservedBits s.draws)
    r2 := Config.freeAfterReset s.draws 2
    r3 := Config.freeAfterReset s.draws 3
    r4 := Config.freeAfterReset s.draws 4
    r5 := Config.freeAfterReset s.draws 5
    r6 := Config.freeAfterReset s.draws 6
    r7 := Config.freeAfterReset s.draws 7
    r8 := Config.freeAfterReset s.draws 8
    r9 := Config.freeAfterReset s.draws 9
    r10 := Config.freeAfterReset s.draws 10
    r11 := Config.freeAfterReset s.draws 11
    r12 := Config.freeAfterReset s.draws 12
    r13 := Config.freeAfterReset s.draws 13
    ra := Config.freeAfterReset s.draws 14
    sp := Config.freeAfterReset s.draws 15 }

/-- The reset sequence; memory and what a fetch may still see of it are left alone (`70_reset_and_hazards.md` R341; logs 26,
38). -/
def warmReset (s : State) : State :=
  { s with
    regs := resetRegs s
    pc := 0x00000#18
    isp := dedicatedOfWord (Config.freeAfterReset s.draws 16)
    intbase := dedicatedOfWord (Config.freeAfterReset s.draws 17)
    psr := Psr.afterReset
    cfg := 0x0000#16
    waiting := false }

/-! ### The step boundary (`60_exceptions.md` R301, R305) -/

/-- No request, and nothing said of devices (D13). -/
def Sample.none : Sample := { reset := false, nmi := false, irq := false, ise := false, icuByte := 0, devices := [] }

/-- What the platform presents at this step boundary (D13; log 13). -/
def State.sample (s : State) : Sample := s.inputs.headD Sample.none

/-- The sample is used up, what it says of devices holds during the step, and the draw counter advances (logs 13, 34, 41). -/
def State.tick (s : State) : State :=
  { s with inputs := s.inputs.tail, devices := s.sample.devices, draws := s.draws + 1 }

/-- What a step does. -/
inductive Event where
  /-- The reset signal is active. -/
  | reset
  /-- An exception is taken before the instruction at the PC. -/
  | exception (k : Exc)
  /-- Waiting for Interrupt, and none is accepted. -/
  | idle
  /-- The instruction at the PC is executed. -/
  | instruction
  deriving DecidableEq, Repr

/-- The checks before an instruction, highest priority first: reset, NMI, a maskable interrupt if E and I are 1, ISE; then,
unless waiting, the trace trap if P is 1 (`60_exceptions.md` R301, R305). -/
def nextEvent (s : State) : Event :=
  if s.sample.reset then .reset
  else if s.sample.nmi then .exception .nmi
  else if s.sample.irq && s.psr.e && s.psr.i then .exception (.maskable s.sample.icuByte)
  else if s.sample.ise then .exception .ise
  else if s.waiting then .idle
  else if s.psr.p then .exception .trc
  else .instruction

/-- Beginning an instruction copies PSR.T to PSR.P (`60_exceptions.md` R305, C8). -/
def State.copyTrace (s : State) : State := { s with psr := { s.psr with p := s.psr.t } }

end Sys2Proof.Machine
end

