-- ==== Sys2Proof/Machine/Shapes.lean ====
section
/-! DEFINITION. The shapes instructions share: what is read, what is written and how the PC advances. Each meaning is one line
over one of them. All operands are read before any result is written (`30_encoding.md` R124). -/

namespace Sys2Proof.Machine

/-- `xb[d] <- op(xb[d], SRC)`: a byte operation that changes no flag (`10_state.md` R23). -/
def byteResult (op : Byte → Byte → Byte) (src : Src) (dest : Reg) (s : State) : Res State :=
  .next ((s.setRegByte dest (op (s.regByte dest) (srcByte s src))).advance (srcLen src))

/-- `x[d] <- op(x[d], SRC)`: a word operation that changes no flag. -/
def wordResult (op : Word → Word → Word) (src : Src) (dest : Reg) (s : State) : Res State :=
  .next ((s.setReg dest (op (s.reg dest) (srcWord s src))).advance (srcLen src))

/-- A byte addition or subtraction with carry- or borrow-in `c`, writing C and F (`41_arithmetic.md` R157, R158). -/
def byteArith (result : Byte → Byte → Bool → Byte) (carry overflow : Byte → Byte → Bool → Bool) (c : Bool)
    (src : Src) (dest : Reg) (s : State) : Res State :=
  let a := s.regByte dest
  let b := srcByte s src
  .next (((s.setPsr (s.psr.withCarryOverflow (carry a b c) (overflow a b c))).setRegByte dest
    (result a b c)).advance (srcLen src))

/-- A word addition or subtraction with carry- or borrow-in `c`, writing C and F (`41_arithmetic.md` R157, R158). -/
def wordArith (result : Word → Word → Bool → Word) (carry overflow : Word → Word → Bool → Bool) (c : Bool)
    (src : Src) (dest : Reg) (s : State) : Res State :=
  let a := s.reg dest
  let b := srcWord s src
  .next (((s.setPsr (s.psr.withCarryOverflow (carry a b c) (overflow a b c))).setReg dest
    (result a b c)).advance (srcLen src))

/-- The count of a shift: the operand's low byte as a signed integer, in the B and the W form (`44_shifts.md` R190). -/
def shiftCount (s : State) (count : Src) : Int := (srcByte s count).toInt

/-- A byte shift: bits 15..8 of the register keep their value (`44_shifts.md` R191 to R193). -/
def byteShift (op : Byte → Int → Byte → Byte) (count : Src) (dest : Reg) (s : State) : Res State :=
  .next ((s.setRegByte dest (op (s.regByte dest) (shiftCount s count) (Config.freeShiftByte s.draws))).advance (srcLen count))

/-- A word shift (`44_shifts.md` R191 to R193). -/
def wordShift (op : Word → Int → Word → Word) (count : Src) (dest : Reg) (s : State) : Res State :=
  .next ((s.setReg dest (op (s.reg dest) (shiftCount s count) (Config.freeShiftWord s.draws))).advance (srcLen count))

/-- Scond: the whole register becomes 1 or 0 (`43_logical.md` R178). -/
def saveCondition (c : Cond) (dest : Reg) (s : State) : Res State :=
  .next ((s.setReg dest (if condHolds c s.psr then 0x0001#16 else 0x0000#16)).advance 2)

/-- Bcond and BR: to the target where `taken`, else to the next instruction (`47_jumps.md` R216, R217, R219). -/
def branch (taken : Bool) (disp : Disp) (s : State) : Res State :=
  .next (if taken then s.setPc (branchTarget s.pc (dispValue disp)) else s.advance (dispLen disp))

/-- Jcond and JUMP: to the code pointer in the register where `taken`, else to the next instruction (`47_jumps.md` R231,
R233). -/
def jump (taken : Bool) (target : Reg) (s : State) : Res State :=
  .next (if taken then s.setPc (ofCodePointer (s.reg target)) else s.advance 2)

end Sys2Proof.Machine
end

