-- ==== Sys2Proof/Machine/Arith.lean ====
section
/-! DEFINITION. Integer arithmetic (`41_arithmetic.md`). -/

namespace Sys2Proof.Machine

/-- ADDB (`41_arithmetic.md` R152). -/
def execAddb (src : Src) (dest : Reg) (s : State) : Res State :=
  byteArith addResult addCarry addOverflow false src dest s

/-- ADDW (`41_arithmetic.md` R152). -/
def execAddw (src : Src) (dest : Reg) (s : State) : Res State :=
  wordArith addResult addCarry addOverflow false src dest s

/-- ADDUB: flags unaffected (`41_arithmetic.md` R151). -/
def execAddub (src : Src) (dest : Reg) (s : State) : Res State :=
  byteResult (fun a b => addResult a b false) src dest s

/-- ADDUW: flags unaffected (`41_arithmetic.md` R151). -/
def execAdduw (src : Src) (dest : Reg) (s : State) : Res State :=
  wordResult (fun a b => addResult a b false) src dest s

/-- ADDCB: the carry-in is PSR.C (`41_arithmetic.md` R153, C1). -/
def execAddcb (src : Src) (dest : Reg) (s : State) : Res State :=
  byteArith addResult addCarry addOverflow s.psr.c src dest s

/-- ADDCW: the carry-in is PSR.C (`41_arithmetic.md` R153, C1). -/
def execAddcw (src : Src) (dest : Reg) (s : State) : Res State :=
  wordArith addResult addCarry addOverflow s.psr.c src dest s

/-- MULB: the signed product, truncated; no flag (`41_arithmetic.md` R154). -/
def execMulb (src : Src) (dest : Reg) (s : State) : Res State :=
  byteResult (fun a b => BitVec.ofInt 8 (a.toInt * b.toInt)) src dest s

/-- MULW: the signed product, truncated; no flag (`41_arithmetic.md` R154). -/
def execMulw (src : Src) (dest : Reg) (s : State) : Res State :=
  wordResult (fun a b => BitVec.ofInt 16 (a.toInt * b.toInt)) src dest s

/-- SUBB (`41_arithmetic.md` R155). -/
def execSubb (src : Src) (dest : Reg) (s : State) : Res State :=
  byteArith subResult subBorrow subOverflow false src dest s

/-- SUBW (`41_arithmetic.md` R155). -/
def execSubw (src : Src) (dest : Reg) (s : State) : Res State :=
  wordArith subResult subBorrow subOverflow false src dest s

/-- SUBCB: the borrow-in is PSR.C (`41_arithmetic.md` R156). -/
def execSubcb (src : Src) (dest : Reg) (s : State) : Res State :=
  byteArith subResult subBorrow subOverflow s.psr.c src dest s

/-- SUBCW: the borrow-in is PSR.C (`41_arithmetic.md` R156). -/
def execSubcw (src : Src) (dest : Reg) (s : State) : Res State :=
  wordArith subResult subBorrow subOverflow s.psr.c src dest s

end Sys2Proof.Machine
end

