-- ==== Sys2Proof/Machine/Bits.lean ====
section
/-! DEFINITION. The bit test (`45_bits.md`). -/

namespace Sys2Proof.Machine

/-- The bit a test reads: free where the offset, all 16 bits of it, is above 15 (`45_bits.md` R200, R201, D11; log 11). -/
def testedBit (s : State) (offset : Src) (src : Reg) : Bool :=
  if (srcWord s offset).toNat ≤ 15 then (s.reg src).getLsbD (srcWord s offset).toNat else Config.freeTestBit s.draws

/-- TBIT: PSR.F is written, no register (`45_bits.md` R200, C6). -/
def execTbit (offset : Src) (src : Reg) (s : State) : Res State :=
  .next ((s.setPsr (s.psr.withF (testedBit s offset src))).advance (srcLen offset))

end Sys2Proof.Machine
end

