-- ==== Sys2Proof/Machine/Compare.lean ====
section
/-! DEFINITION. Integer comparison (`42_compare.md`): Z, N and L are written, no register. -/

namespace Sys2Proof.Machine

/-- CMPB (`42_compare.md` R170). -/
def execCmpb (src1 : Src) (src2 : Reg) (s : State) : Res State :=
  .next ((s.setPsr (s.psr.compared (srcByte s src1) (s.regByte src2))).advance (srcLen src1))

/-- CMPW (`42_compare.md` R170). -/
def execCmpw (src1 : Src) (src2 : Reg) (s : State) : Res State :=
  .next ((s.setPsr (s.psr.compared (srcWord s src1) (s.reg src2))).advance (srcLen src1))

end Sys2Proof.Machine
end

