-- ==== Sys2Proof/Machine/Jumps.lean ====
section
/-! DEFINITION. Jumps and linkage (`47_jumps.md`), and the words of Table A-2 and R119 (`30_encoding.md`). -/

namespace Sys2Proof.Machine

/-- BEQ (`47_jumps.md` R217). -/
def execBeq (disp : Disp) (s : State) : Res State :=
  branch (condHolds .eq s.psr) disp s

/-- BNE (`47_jumps.md` R217). -/
def execBne (disp : Disp) (s : State) : Res State :=
  branch (condHolds .ne s.psr) disp s

/-- BCS (`47_jumps.md` R217). -/
def execBcs (disp : Disp) (s : State) : Res State :=
  branch (condHolds .cs s.psr) disp s

/-- BCC (`47_jumps.md` R217). -/
def execBcc (disp : Disp) (s : State) : Res State :=
  branch (condHolds .cc s.psr) disp s

/-- BHI (`47_jumps.md` R217). -/
def execBhi (disp : Disp) (s : State) : Res State :=
  branch (condHolds .hi s.psr) disp s

/-- BLS (`47_jumps.md` R217). -/
def execBls (disp : Disp) (s : State) : Res State :=
  branch (condHolds .ls s.psr) disp s

/-- BGT (`47_jumps.md` R217). -/
def execBgt (disp : Disp) (s : State) : Res State :=
  branch (condHolds .gt s.psr) disp s

/-- BLE (`47_jumps.md` R217). -/
def execBle (disp : Disp) (s : State) : Res State :=
  branch (condHolds .le s.psr) disp s

/-- BFS (`47_jumps.md` R217). -/
def execBfs (disp : Disp) (s : State) : Res State :=
  branch (condHolds .fs s.psr) disp s

/-- BFC (`47_jumps.md` R217). -/
def execBfc (disp : Disp) (s : State) : Res State :=
  branch (condHolds .fc s.psr) disp s

/-- BLO (`47_jumps.md` R217). -/
def execBlo (disp : Disp) (s : State) : Res State :=
  branch (condHolds .lo s.psr) disp s

/-- BHS (`47_jumps.md` R217). -/
def execBhs (disp : Disp) (s : State) : Res State :=
  branch (condHolds .hs s.psr) disp s

/-- BLT (`47_jumps.md` R217). -/
def execBlt (disp : Disp) (s : State) : Res State :=
  branch (condHolds .lt s.psr) disp s

/-- BGE (`47_jumps.md` R217). -/
def execBge (disp : Disp) (s : State) : Res State :=
  branch (condHolds .ge s.psr) disp s

/-- BR (`47_jumps.md` R219). -/
def execBr (disp : Disp) (s : State) : Res State :=
  branch true disp s

/-- BAL: the link is the code pointer of the next instruction (`47_jumps.md` R218, R234). -/
def execBal (link : Reg) (disp : BitVec 17) (s : State) : Res State :=
  .next ((s.setReg link (codePointer (nextPc s.pc 4))).setPc (branchTarget s.pc (disp.signExtend 18)))

/-- The trap a vector code of EXCP names: the codes other than the five defined ones name UND (`47_jumps.md` R230). -/
def excpTrap (vector : BitVec 4) : Exc :=
  match vector with
  | 0b0101#4 => .svc
  | 0b0110#4 => .dvz
  | 0b0111#4 => .flg
  | 0b1000#4 => .bpt
  | _ => .und

/-- EXCP: the trap is taken with the EXCP's own address saved (`47_jumps.md` R230). -/
def execExcp (vector : BitVec 4) (s : State) : Res State :=
  enter (excpTrap vector) s

/-- JEQ (`47_jumps.md` R231). -/
def execJeq (target : Reg) (s : State) : Res State :=
  jump (condHolds .eq s.psr) target s

/-- JNE (`47_jumps.md` R231). -/
def execJne (target : Reg) (s : State) : Res State :=
  jump (condHolds .ne s.psr) target s

/-- JCS (`47_jumps.md` R231). -/
def execJcs (target : Reg) (s : State) : Res State :=
  jump (condHolds .cs s.psr) target s

/-- JCC (`47_jumps.md` R231). -/
def execJcc (target : Reg) (s : State) : Res State :=
  jump (condHolds .cc s.psr) target s

/-- JHI (`47_jumps.md` R231). -/
def execJhi (target : Reg) (s : State) : Res State :=
  jump (condHolds .hi s.psr) target s

/-- JLS (`47_jumps.md` R231). -/
def execJls (target : Reg) (s : State) : Res State :=
  jump (condHolds .ls s.psr) target s

/-- JGT (`47_jumps.md` R231). -/
def execJgt (target : Reg) (s : State) : Res State :=
  jump (condHolds .gt s.psr) target s

/-- JLE (`47_jumps.md` R231). -/
def execJle (target : Reg) (s : State) : Res State :=
  jump (condHolds .le s.psr) target s

/-- JFS (`47_jumps.md` R231). -/
def execJfs (target : Reg) (s : State) : Res State :=
  jump (condHolds .fs s.psr) target s

/-- JFC (`47_jumps.md` R231). -/
def execJfc (target : Reg) (s : State) : Res State :=
  jump (condHolds .fc s.psr) target s

/-- JLO (`47_jumps.md` R231). -/
def execJlo (target : Reg) (s : State) : Res State :=
  jump (condHolds .lo s.psr) target s

/-- JHS (`47_jumps.md` R231). -/
def execJhs (target : Reg) (s : State) : Res State :=
  jump (condHolds .hs s.psr) target s

/-- JLT (`47_jumps.md` R231). -/
def execJlt (target : Reg) (s : State) : Res State :=
  jump (condHolds .lt s.psr) target s

/-- JGE (`47_jumps.md` R231). -/
def execJge (target : Reg) (s : State) : Res State :=
  jump (condHolds .ge s.psr) target s

/-- JUMP (`47_jumps.md` R233). -/
def execJump (target : Reg) (s : State) : Res State :=
  jump true target s

/-- JAL: the target is read before the link is written (`47_jumps.md` R232, D18; log 18). -/
def execJal (link target : Reg) (s : State) : Res State :=
  .next ((s.setReg link (codePointer (nextPc s.pc 2))).setPc (ofCodePointer (s.reg target)))

/-- RETX (`47_jumps.md` R235). -/
def execRetx (s : State) : Res State :=
  returnFromException s

/-- UND: an op code of Table A-2 takes the UND trap; no data reference is made for it (`60_exceptions.md` R285,
`30_encoding.md` R117). -/
def execUnd (_word : Word) (s : State) : Res State :=
  enter .und s

/-- UNSPECIFIED: the spec gives these first words no behaviour (`30_encoding.md` R119, D7; log 7). -/
def execUnspecified (_words : Words) (_s : State) : Res State :=
  .refused .unspecifiedEncoding

end Sys2Proof.Machine
end

