-- ==== Sys2Proof/Machine/LoadStore.lean ====
section
/-! DEFINITION. Loads and stores (`48_loadstore.md`): the address is computed before the destination is written (R246); no flag
changes. -/

namespace Sys2Proof.Machine

/-- LOADB: bits 15..8 of the destination keep their value (`48_loadstore.md` R250). -/
def execLoadb (src : Mode) (dest : Reg) (s : State) : Res State :=
  andThen (memRead8 s (effAddr s src)) fun r => .next ((r.2.setRegByte dest r.1).advance (modeLen src))

/-- LOADW (`48_loadstore.md` R250). -/
def execLoadw (src : Mode) (dest : Reg) (s : State) : Res State :=
  andThen (memRead16 s (effAddr s src)) fun r => .next ((r.2.setReg dest r.1).advance (modeLen src))

/-- STORB: one byte, the low byte of the source (`48_loadstore.md` R251). -/
def execStorb (src : Reg) (dest : Mode) (s : State) : Res State :=
  andThen (memWrite8 s (effAddr s dest) (s.regByte src)) fun t => .next (t.advance (modeLen dest))

/-- STORW: two bytes at any address (`48_loadstore.md` R251). -/
def execStorw (src : Reg) (dest : Mode) (s : State) : Res State :=
  andThen (memWrite16 s (effAddr s dest) (s.reg src)) fun t => .next (t.advance (modeLen dest))

end Sys2Proof.Machine
end

