-- ==== Sys2Proof/Machine/Logical.lean ====
section
/-! DEFINITION. Logical and boolean instructions (`43_logical.md`): no flag changes (R175). -/

namespace Sys2Proof.Machine

/-- ANDB (`43_logical.md` R176). -/
def execAndb (src : Src) (dest : Reg) (s : State) : Res State :=
  byteResult (fun a b => a &&& b) src dest s

/-- ANDW (`43_logical.md` R176). -/
def execAndw (src : Src) (dest : Reg) (s : State) : Res State :=
  wordResult (fun a b => a &&& b) src dest s

/-- ORB (`43_logical.md` R177). -/
def execOrb (src : Src) (dest : Reg) (s : State) : Res State :=
  byteResult (fun a b => a ||| b) src dest s

/-- ORW (`43_logical.md` R177). -/
def execOrw (src : Src) (dest : Reg) (s : State) : Res State :=
  wordResult (fun a b => a ||| b) src dest s

/-- XORB (`43_logical.md` R179). -/
def execXorb (src : Src) (dest : Reg) (s : State) : Res State :=
  byteResult (fun a b => a ^^^ b) src dest s

/-- XORW (`43_logical.md` R179). -/
def execXorw (src : Src) (dest : Reg) (s : State) : Res State :=
  wordResult (fun a b => a ^^^ b) src dest s

/-- SEQ (`43_logical.md` R178, `47_jumps.md` R215). -/
def execSeq (dest : Reg) (s : State) : Res State :=
  saveCondition .eq dest s

/-- SNE (`43_logical.md` R178, `47_jumps.md` R215). -/
def execSne (dest : Reg) (s : State) : Res State :=
  saveCondition .ne dest s

/-- SCS (`43_logical.md` R178, `47_jumps.md` R215). -/
def execScs (dest : Reg) (s : State) : Res State :=
  saveCondition .cs dest s

/-- SCC (`43_logical.md` R178, `47_jumps.md` R215). -/
def execScc (dest : Reg) (s : State) : Res State :=
  saveCondition .cc dest s

/-- SHI (`43_logical.md` R178, `47_jumps.md` R215). -/
def execShi (dest : Reg) (s : State) : Res State :=
  saveCondition .hi dest s

/-- SLS (`43_logical.md` R178, `47_jumps.md` R215). -/
def execSls (dest : Reg) (s : State) : Res State :=
  saveCondition .ls dest s

/-- SGT (`43_logical.md` R178, `47_jumps.md` R215). -/
def execSgt (dest : Reg) (s : State) : Res State :=
  saveCondition .gt dest s

/-- SLE (`43_logical.md` R178, `47_jumps.md` R215). -/
def execSle (dest : Reg) (s : State) : Res State :=
  saveCondition .le dest s

/-- SFS (`43_logical.md` R178, `47_jumps.md` R215). -/
def execSfs (dest : Reg) (s : State) : Res State :=
  saveCondition .fs dest s

/-- SFC (`43_logical.md` R178, `47_jumps.md` R215). -/
def execSfc (dest : Reg) (s : State) : Res State :=
  saveCondition .fc dest s

/-- SLO (`43_logical.md` R178, `47_jumps.md` R215). -/
def execSlo (dest : Reg) (s : State) : Res State :=
  saveCondition .lo dest s

/-- SHS (`43_logical.md` R178, `47_jumps.md` R215). -/
def execShs (dest : Reg) (s : State) : Res State :=
  saveCondition .hs dest s

/-- SLT (`43_logical.md` R178, `47_jumps.md` R215). -/
def execSlt (dest : Reg) (s : State) : Res State :=
  saveCondition .lt dest s

/-- SGE (`43_logical.md` R178, `47_jumps.md` R215). -/
def execSge (dest : Reg) (s : State) : Res State :=
  saveCondition .ge dest s

end Sys2Proof.Machine
end

