-- ==== Sys2Proof/Machine/Misc.lean ====
section
/-! DEFINITION. Miscellaneous instructions (`49_misc.md`). -/

namespace Sys2Proof.Machine

/-- DI: PSR.E becomes 0 (`49_misc.md` R265). -/
def execDi (s : State) : Res State :=
  .next ((s.setPsr { s.psr with e := false }).advance 2)

/-- EI: PSR.E becomes 1 (`49_misc.md` R266). -/
def execEi (s : State) : Res State :=
  .next ((s.setPsr { s.psr with e := true }).advance 2)

/-- NOP: only the PC advances (`49_misc.md` R267). -/
def execNop (s : State) : Res State :=
  .next (s.advance 2)

/-- WAIT: the instruction is complete and the core waits for an interrupt (`49_misc.md` R268, D23; log 23). -/
def execWait (s : State) : Res State :=
  .next { s.advance 2 with waiting := true }

end Sys2Proof.Machine
end

