-- ==== Sys2Proof/Machine/Moves.lean ====
section
/-! DEFINITION. Moves (`40_moves.md`): no flag changes, no memory is touched (R140). -/

namespace Sys2Proof.Machine

/-- MOVB: bits 15..8 of the destination keep their value (`40_moves.md` R141). -/
def execMovb (src : Src) (dest : Reg) (s : State) : Res State :=
  byteResult (fun _ v => v) src dest s

/-- MOVW (`40_moves.md` R141). -/
def execMovw (src : Src) (dest : Reg) (s : State) : Res State :=
  wordResult (fun _ v => v) src dest s

/-- MOVXB: the sign-extended low byte of the source (`40_moves.md` R142, C5). -/
def execMovxb (src dest : Reg) (s : State) : Res State :=
  .next ((s.setReg dest ((s.regByte src).signExtend 16)).advance 2)

/-- MOVZB: the zero-extended low byte of the source (`40_moves.md` R143, C5). -/
def execMovzb (src dest : Reg) (s : State) : Res State :=
  .next ((s.setReg dest ((s.regByte src).setWidth 16)).advance 2)

end Sys2Proof.Machine
end

