-- ==== Sys2Proof/Machine/ProcRegs.lean ====
section
/-! DEFINITION. Processor registers (`46_procreg.md`). -/

namespace Sys2Proof.Machine

/-- A write of a processor register (`46_procreg.md` R206, R209). -/
def writeProcReg (r : ProcReg) (v : Word) (s : State) : State :=
  match r with
  | .psr => s.setPsr (Psr.ofImage v)
  | .intbase => { s with intbase := dedicatedOfWord v }
  | .isp => { s with isp := dedicatedOfWord v }

/-- A read of a processor register; the PSR's bits 15..12 are free (`46_procreg.md` R208, R209, D12; log 12). -/
def readProcReg (r : ProcReg) (s : State) : Word :=
  match r with
  | .psr => s.psr.image (Config.freeReservedBits s.draws)
  | .intbase => wordOfDedicated s.intbase
  | .isp => wordOfDedicated s.isp

/-- LPR, which serializes (`46_procreg.md` R206, R210). -/
def execLpr (src : Reg) (dest : ProcReg) (s : State) : Res State :=
  .next ((writeProcReg dest (s.reg src) s).serialize.advance 2)

/-- SPR (`46_procreg.md` R208). -/
def execSpr (src : ProcReg) (dest : Reg) (s : State) : Res State :=
  .next ((s.setReg dest (readProcReg src s)).advance 2)

end Sys2Proof.Machine
end

