-- ==== Sys2Proof/Machine/Shifts.lean ====
section
/-! DEFINITION. Shifts (`44_shifts.md`): no flag changes; a count out of range leaves a free value (R193, D11; log 11). -/

namespace Sys2Proof.Machine

/-- ASHUB (`44_shifts.md` R191). -/
def execAshub (count : Src) (dest : Reg) (s : State) : Res State :=
  byteShift arithShift count dest s

/-- ASHUW (`44_shifts.md` R191). -/
def execAshuw (count : Src) (dest : Reg) (s : State) : Res State :=
  wordShift arithShift count dest s

/-- LSHB (`44_shifts.md` R192, C2). -/
def execLshb (count : Src) (dest : Reg) (s : State) : Res State :=
  byteShift logicShift count dest s

/-- LSHW (`44_shifts.md` R192, C2). -/
def execLshw (count : Src) (dest : Reg) (s : State) : Res State :=
  wordShift logicShift count dest s

end Sys2Proof.Machine
end

