-- ==== Sys2Proof/Machine/Dispatch.lean ====
section
/-! DEFINITION. The meaning of every instruction, one arm each. -/

namespace Sys2Proof.Machine

def exec (i : Instr) (s : State) : Host.Outcome State Fault Refusal :=
  match i with
  | .movb src dest => Sys2Proof.Machine.execMovb src dest s
  | .movw src dest => Sys2Proof.Machine.execMovw src dest s
  | .movxb src dest => Sys2Proof.Machine.execMovxb src dest s
  | .movzb src dest => Sys2Proof.Machine.execMovzb src dest s
  | .addb src dest => Sys2Proof.Machine.execAddb src dest s
  | .addw src dest => Sys2Proof.Machine.execAddw src dest s
  | .addub src dest => Sys2Proof.Machine.execAddub src dest s
  | .adduw src dest => Sys2Proof.Machine.execAdduw src dest s
  | .addcb src dest => Sys2Proof.Machine.execAddcb src dest s
  | .addcw src dest => Sys2Proof.Machine.execAddcw src dest s
  | .mulb src dest => Sys2Proof.Machine.execMulb src dest s
  | .mulw src dest => Sys2Proof.Machine.execMulw src dest s
  | .subb src dest => Sys2Proof.Machine.execSubb src dest s
  | .subw src dest => Sys2Proof.Machine.execSubw src dest s
  | .subcb src dest => Sys2Proof.Machine.execSubcb src dest s
  | .subcw src dest => Sys2Proof.Machine.execSubcw src dest s
  | .cmpb src1 src2 => Sys2Proof.Machine.execCmpb src1 src2 s
  | .cmpw src1 src2 => Sys2Proof.Machine.execCmpw src1 src2 s
  | .andb src dest => Sys2Proof.Machine.execAndb src dest s
  | .andw src dest => Sys2Proof.Machine.execAndw src dest s
  | .orb src dest => Sys2Proof.Machine.execOrb src dest s
  | .orw src dest => Sys2Proof.Machine.execOrw src dest s
  | .xorb src dest => Sys2Proof.Machine.execXorb src dest s
  | .xorw src dest => Sys2Proof.Machine.execXorw src dest s
  | .seq dest => Sys2Proof.Machine.execSeq dest s
  | .sne dest => Sys2Proof.Machine.execSne dest s
  | .scs dest => Sys2Proof.Machine.execScs dest s
  | .scc dest => Sys2Proof.Machine.execScc dest s
  | .shi dest => Sys2Proof.Machine.execShi dest s
  | .sls dest => Sys2Proof.Machine.execSls dest s
  | .sgt dest => Sys2Proof.Machine.execSgt dest s
  | .sle dest => Sys2Proof.Machine.execSle dest s
  | .sfs dest => Sys2Proof.Machine.execSfs dest s
  | .sfc dest => Sys2Proof.Machine.execSfc dest s
  | .slo dest => Sys2Proof.Machine.execSlo dest s
  | .shs dest => Sys2Proof.Machine.execShs dest s
  | .slt dest => Sys2Proof.Machine.execSlt dest s
  | .sge dest => Sys2Proof.Machine.execSge dest s
  | .ashub count dest => Sys2Proof.Machine.execAshub count dest s
  | .ashuw count dest => Sys2Proof.Machine.execAshuw count dest s
  | .lshb count dest => Sys2Proof.Machine.execLshb count dest s
  | .lshw count dest => Sys2Proof.Machine.execLshw count dest s
  | .tbit offset src => Sys2Proof.Machine.execTbit offset src s
  | .lpr src dest => Sys2Proof.Machine.execLpr src dest s
  | .spr src dest => Sys2Proof.Machine.execSpr src dest s
  | .beq disp => Sys2Proof.Machine.execBeq disp s
  | .bne disp => Sys2Proof.Machine.execBne disp s
  | .bcs disp => Sys2Proof.Machine.execBcs disp s
  | .bcc disp => Sys2Proof.Machine.execBcc disp s
  | .bhi disp => Sys2Proof.Machine.execBhi disp s
  | .bls disp => Sys2Proof.Machine.execBls disp s
  | .bgt disp => Sys2Proof.Machine.execBgt disp s
  | .ble disp => Sys2Proof.Machine.execBle disp s
  | .bfs disp => Sys2Proof.Machine.execBfs disp s
  | .bfc disp => Sys2Proof.Machine.execBfc disp s
  | .blo disp => Sys2Proof.Machine.execBlo disp s
  | .bhs disp => Sys2Proof.Machine.execBhs disp s
  | .blt disp => Sys2Proof.Machine.execBlt disp s
  | .bge disp => Sys2Proof.Machine.execBge disp s
  | .br disp => Sys2Proof.Machine.execBr disp s
  | .bal link disp => Sys2Proof.Machine.execBal link disp s
  | .excp vector => Sys2Proof.Machine.execExcp vector s
  | .jeq target => Sys2Proof.Machine.execJeq target s
  | .jne target => Sys2Proof.Machine.execJne target s
  | .jcs target => Sys2Proof.Machine.execJcs target s
  | .jcc target => Sys2Proof.Machine.execJcc target s
  | .jhi target => Sys2Proof.Machine.execJhi target s
  | .jls target => Sys2Proof.Machine.execJls target s
  | .jgt target => Sys2Proof.Machine.execJgt target s
  | .jle target => Sys2Proof.Machine.execJle target s
  | .jfs target => Sys2Proof.Machine.execJfs target s
  | .jfc target => Sys2Proof.Machine.execJfc target s
  | .jlo target => Sys2Proof.Machine.execJlo target s
  | .jhs target => Sys2Proof.Machine.execJhs target s
  | .jlt target => Sys2Proof.Machine.execJlt target s
  | .jge target => Sys2Proof.Machine.execJge target s
  | .jump target => Sys2Proof.Machine.execJump target s
  | .jal link target => Sys2Proof.Machine.execJal link target s
  | .retx => Sys2Proof.Machine.execRetx s
  | .loadb src dest => Sys2Proof.Machine.execLoadb src dest s
  | .loadw src dest => Sys2Proof.Machine.execLoadw src dest s
  | .storb src dest => Sys2Proof.Machine.execStorb src dest s
  | .storw src dest => Sys2Proof.Machine.execStorw src dest s
  | .di => Sys2Proof.Machine.execDi s
  | .ei => Sys2Proof.Machine.execEi s
  | .nop => Sys2Proof.Machine.execNop s
  | .wait => Sys2Proof.Machine.execWait s
  | .und word => Sys2Proof.Machine.execUnd word s
  | .unspecified words => Sys2Proof.Machine.execUnspecified words s

end Sys2Proof.Machine
end

