-- ==== Sys2Proof/WellFormed.lean ====
section
/-! DEFINITION. Which instructions an encoding exists for: the ranges of `30_encoding.md` R120 and the patterns of R117 and
R119. A term that fails a check has no word of its own, or (an odd medium displacement) a word the spec says must not be
written. -/

namespace Sys2Proof

/-- A pattern of first words: the bits of `mask` have the values of `bits` (the rows of `30_encoding.md` R117, R119). -/
structure Pattern where
  mask : Word
  bits : Word
  deriving DecidableEq, Repr

/-- A first word matches a pattern. -/
def Pattern.holds (p : Pattern) (w : Word) : Bool := (w &&& p.mask) == p.bits

/-- Table A-2: the first words that take the UND trap, row by row (`30_encoding.md` R117). -/
def undefinedPatterns : List Pattern :=
  [ ⟨0xFE00#16, 0x1600#16⟩,   -- 00 0 1011 xxxx xxxx x
    ⟨0xDE01#16, 0x1401#16⟩,   -- 00 x 1010 xxxx xxxx 1
    ⟨0xDE00#16, 0x0400#16⟩,   -- 00 x 0010 xxxx xxxx x
    ⟨0xDE01#16, 0x4401#16⟩,   -- 01 x 0010 xxxx xxxx 1
    ⟨0xFE01#16, 0x6C00#16⟩,   -- 01 1 0110 xxxx xxxx 0
    ⟨0xF801#16, 0x6000#16⟩,   -- 01 1 00xx xxxx xxxx 0
    ⟨0xFC01#16, 0x7400#16⟩,   -- 01 1 101x xxxx xxxx 0
    ⟨0xFE01#16, 0x5601#16⟩ ]  -- 01 0 1011 xxxx xxxx 1

/-- A first word of Table A-2 (`30_encoding.md` R117). -/
def isUndefinedWord (w : Word) : Bool := undefinedPatterns.any (·.holds w)

/-- A medium Bcond with condition 1111: the one word of R119 with a second word (`30_encoding.md` R91, R119). -/
def mediumCond15 : Pattern := ⟨0xFFEF#16, 0x15EE#16⟩

/-- The first words of `30_encoding.md` R119: each row with the defined words that are taken out of it. -/
def unspecifiedPatterns : List (Pattern × List Pattern) :=
  [ (⟨0xDE01#16, 0x1400#16⟩, [⟨0xDE0F#16, 0x140E#16⟩]),   -- medium branch or BAL with bits 3..1 not 111
    (⟨0xE1E1#16, 0x41E0#16⟩, []),                          -- Bcond short, cond 1111
    (mediumCond15, []),                                    -- Bcond medium, cond 1111
    (⟨0xFFE1#16, 0x55E1#16⟩, []),                          -- Jcond, cond 1111
    (⟨0xFFC1#16, 0x6FC0#16⟩, []),                          -- Scond, cond 111x
    (⟨0xFE01#16, 0x7000#16⟩, [⟨0xFFE1#16, 0x7020#16⟩, ⟨0xFFE1#16, 0x7060#16⟩, ⟨0xFFE1#16, 0x7160#16⟩]),  -- LPR
    (⟨0xFE01#16, 0x7200#16⟩, [⟨0xFFE1#16, 0x7220#16⟩, ⟨0xFFE1#16, 0x7260#16⟩, ⟨0xFFE1#16, 0x7360#16⟩]),  -- SPR
    (⟨0xFE01#16, 0x7800#16⟩, [⟨0xFFFF#16, 0x79FE#16⟩]),    -- RETX with other constant fields
    (⟨0xFE01#16, 0x7A00#16⟩, [⟨0xFFE1#16, 0x7BE0#16⟩]),    -- EXCP with bits 8..5 not 1111
    (⟨0xFE01#16, 0x7C00#16⟩, [⟨0xFFFF#16, 0x7DDE#16⟩, ⟨0xFFFF#16, 0x7DFE#16⟩]),  -- DI, EI with other fields
    (⟨0xFE01#16, 0x7E00#16⟩, [⟨0xFFFF#16, 0x7FFE#16⟩]) ]   -- WAIT with other constant fields

/-- A first word the spec neither defines nor lists in Table A-2 (`30_encoding.md` R119). -/
def isUnspecifiedWord (w : Word) : Bool :=
  unspecifiedPatterns.any fun r => r.1.holds w && !(r.2.any (·.holds w))

/-- Format IS holds -16 and -14..15: the pattern 10001 is the escape to format IM (`30_encoding.md` R95). -/
def Src.wellFormed : Src → Bool
  | .reg _ => true
  | .short imm => imm != 0b10001#5
  | .medium _ => true

/-- Branch displacements must be even (`30_encoding.md` R110 to R112). -/
def Disp.wellFormed : Disp → Bool
  | .short d => !d.getLsbD 0
  | .medium d => !d.getLsbD 0

/-- A short displacement is 0..15, or even in 16..30 (`30_encoding.md` R105); the base pair is any register except SP
(`30_encoding.md` R108). -/
def Mode.wellFormed : Mode → Bool
  | .relShort _ d => !(d.getLsbD 4 && d.getLsbD 0)
  | .relMedium _ _ => true
  | .farRel pair _ => pair != .sp
  | .abs _ => true

/-- The instructions that have an encoding of their own. The word of `ADDUB $0, R0` is NOP's (`30_encoding.md` R122). -/
def Instr.wellFormed : Instr → Bool
  | .movb src _ => src.wellFormed
  | .movw src _ => src.wellFormed
  | .movxb _ _ => true
  | .movzb _ _ => true
  | .addb src _ => src.wellFormed
  | .addw src _ => src.wellFormed
  | .addub src dest => src.wellFormed && !(src == .short 0#5 && dest == .r0)
  | .adduw src _ => src.wellFormed
  | .addcb src _ => src.wellFormed
  | .addcw src _ => src.wellFormed
  | .mulb src _ => src.wellFormed
  | .mulw src _ => src.wellFormed
  | .subb src _ => src.wellFormed
  | .subw src _ => src.wellFormed
  | .subcb src _ => src.wellFormed
  | .subcw src _ => src.wellFormed
  | .cmpb src1 _ => src1.wellFormed
  | .cmpw src1 _ => src1.wellFormed
  | .andb src _ => src.wellFormed
  | .andw src _ => src.wellFormed
  | .orb src _ => src.wellFormed
  | .orw src _ => src.wellFormed
  | .xorb src _ => src.wellFormed
  | .xorw src _ => src.wellFormed
  | .seq _ => true
  | .sne _ => true
  | .scs _ => true
  | .scc _ => true
  | .shi _ => true
  | .sls _ => true
  | .sgt _ => true
  | .sle _ => true
  | .sfs _ => true
  | .sfc _ => true
  | .slo _ => true
  | .shs _ => true
  | .slt _ => true
  | .sge _ => true
  | .ashub count _ => count.wellFormed
  | .ashuw count _ => count.wellFormed
  | .lshb count _ => count.wellFormed
  | .lshw count _ => count.wellFormed
  | .tbit offset _ => offset.wellFormed
  | .lpr _ _ => true
  | .spr _ _ => true
  | .beq disp => disp.wellFormed
  | .bne disp => disp.wellFormed
  | .bcs disp => disp.wellFormed
  | .bcc disp => disp.wellFormed
  | .bhi disp => disp.wellFormed
  | .bls disp => disp.wellFormed
  | .bgt disp => disp.wellFormed
  | .ble disp => disp.wellFormed
  | .bfs disp => disp.wellFormed
  | .bfc disp => disp.wellFormed
  | .blo disp => disp.wellFormed
  | .bhs disp => disp.wellFormed
  | .blt disp => disp.wellFormed
  | .bge disp => disp.wellFormed
  | .br disp => disp.wellFormed
  | .bal _ d => !d.getLsbD 0
  | .excp _ => true
  | .jeq _ => true
  | .jne _ => true
  | .jcs _ => true
  | .jcc _ => true
  | .jhi _ => true
  | .jls _ => true
  | .jgt _ => true
  | .jle _ => true
  | .jfs _ => true
  | .jfc _ => true
  | .jlo _ => true
  | .jhs _ => true
  | .jlt _ => true
  | .jge _ => true
  | .jump _ => true
  | .jal _ _ => true
  | .retx => true
  | .loadb src _ => src.wellFormed
  | .loadw src _ => src.wellFormed
  | .storb _ dest => dest.wellFormed
  | .storw _ dest => dest.wellFormed
  | .di => true
  | .ei => true
  | .nop => true
  | .wait => true
  | .und w => isUndefinedWord w
  | .unspecified (.one w) => isUnspecifiedWord w && !mediumCond15.holds w
  | .unspecified (.two w _) => mediumCond15.holds w

end Sys2Proof
end

