-- ==== Sys2Proof/Decode.lean ====
section
/-! DEFINITION. The decoder, in the order of `30_encoding.md` R116, and after it the encoder, written from the formats R94 to
R115. Every first word decodes: those of Table A-2 to `und` (R117), those of R119 to `unspecified`; the decoder rejects only
bytes that end before the instruction does. -/

namespace Sys2Proof

/-! ### The fields of a first word (`30_encoding.md` R92) -/

/-- Bits 15..14, the major op code. -/
def fieldOp2 (w : Word) : BitVec 2 := w.extractLsb' 14 2

/-- Bit 13, the operation length or part of the op code. -/
def fieldI (w : Word) : BitVec 1 := w.extractLsb' 13 1

/-- Bits 12..9, op code or displacement bits. -/
def fieldF (w : Word) : BitVec 4 := w.extractLsb' 9 4

/-- Bits 8..5, operand 2. -/
def fieldA (w : Word) : BitVec 4 := w.extractLsb' 5 4

/-- Bits 4..1, operand 1. -/
def fieldB (w : Word) : BitVec 4 := w.extractLsb' 1 4

/-- Bit 0. -/
def fieldZ (w : Word) : BitVec 1 := w.extractLsb' 0 1

/-- Bits 4..0, the short immediate (`30_encoding.md` R95). -/
def fieldImm (w : Word) : BitVec 5 := w.extractLsb' 0 5

/-- A first word from its fields (`30_encoding.md` R92). -/
def packWord (op2 : BitVec 2) (i : BitVec 1) (f a b : BitVec 4) (z : BitVec 1) : Word := op2 ++ i ++ f ++ a ++ b ++ z

/-! ### Register, processor-register and condition codes (`30_encoding.md` R93) -/

/-- The 4-bit code of a general register (`10_state.md` R21). -/
def Reg.code : Reg → BitVec 4
  | .r0 => 0b0000#4
  | .r1 => 0b0001#4
  | .r2 => 0b0010#4
  | .r3 => 0b0011#4
  | .r4 => 0b0100#4
  | .r5 => 0b0101#4
  | .r6 => 0b0110#4
  | .r7 => 0b0111#4
  | .r8 => 0b1000#4
  | .r9 => 0b1001#4
  | .r10 => 0b1010#4
  | .r11 => 0b1011#4
  | .r12 => 0b1100#4
  | .r13 => 0b1101#4
  | .ra => 0b1110#4
  | .sp => 0b1111#4

/-- The general register of a 4-bit code (`10_state.md` R21). -/
def Reg.ofCode (c : BitVec 4) : Reg :=
  match c with
  | 0b0000#4 => .r0
  | 0b0001#4 => .r1
  | 0b0010#4 => .r2
  | 0b0011#4 => .r3
  | 0b0100#4 => .r4
  | 0b0101#4 => .r5
  | 0b0110#4 => .r6
  | 0b0111#4 => .r7
  | 0b1000#4 => .r8
  | 0b1001#4 => .r9
  | 0b1010#4 => .r10
  | 0b1011#4 => .r11
  | 0b1100#4 => .r12
  | 0b1101#4 => .r13
  | 0b1110#4 => .ra
  | _ => .sp

/-- The 4-bit code of a processor register (`10_state.md` R43). -/
def ProcReg.code : ProcReg → BitVec 4
  | .psr => 0b0001#4
  | .intbase => 0b0011#4
  | .isp => 0b1011#4

/-- The processor register of a 4-bit code: three codes are defined (`10_state.md` R43). -/
def ProcReg.ofCode (c : BitVec 4) : Option ProcReg :=
  match c with
  | 0b0001#4 => some .psr
  | 0b0011#4 => some .intbase
  | 0b1011#4 => some .isp
  | _ => none

/-! ### Decoding -/

/-- The length of an instruction is a function of its first word: true where there is a second word (`30_encoding.md` R91). -/
def isLong (w : Word) : Bool :=
  match fieldOp2 w with
  | 0b00#2 =>
    if fieldF w == 0b1010#4 then w.extractLsb' 0 4 == 0b1110#4
    else
      fieldF w != 0b0010#4 && !(fieldF w == 0b1011#4 && fieldI w == 0#1) && fieldImm w == 0b10001#5
  | 0b01#2 => false
  | _ => w.getLsbD 12 && w.getLsbD 0

/-- The instruction of the op code field of formats RR, IS and IM, none where it is undefined or no ALU op
(`30_encoding.md` R97). -/
def decodeAlu (i : BitVec 1) (f : BitVec 4) (src : Src) (dest : Reg) : Option Instr :=
  match i, f with
  | 0#1, 0b0000#4 => some (.addb src dest)
  | 1#1, 0b0000#4 => some (.addw src dest)
  | 0#1, 0b0001#4 => some (.addub src dest)
  | 1#1, 0b0001#4 => some (.adduw src dest)
  | 0#1, 0b0011#4 => some (.mulb src dest)
  | 1#1, 0b0011#4 => some (.mulw src dest)
  | 0#1, 0b0100#4 => some (.ashub src dest)
  | 1#1, 0b0100#4 => some (.ashuw src dest)
  | 0#1, 0b0101#4 => some (.lshb src dest)
  | 1#1, 0b0101#4 => some (.lshw src dest)
  | 0#1, 0b0110#4 => some (.xorb src dest)
  | 1#1, 0b0110#4 => some (.xorw src dest)
  | 0#1, 0b0111#4 => some (.cmpb src dest)
  | 1#1, 0b0111#4 => some (.cmpw src dest)
  | 0#1, 0b1000#4 => some (.andb src dest)
  | 1#1, 0b1000#4 => some (.andw src dest)
  | 0#1, 0b1001#4 => some (.addcb src dest)
  | 1#1, 0b1001#4 => some (.addcw src dest)
  | 0#1, 0b1100#4 => some (.movb src dest)
  | 1#1, 0b1100#4 => some (.movw src dest)
  | 0#1, 0b1101#4 => some (.subcb src dest)
  | 1#1, 0b1101#4 => some (.subcw src dest)
  | 0#1, 0b1110#4 => some (.orb src dest)
  | 1#1, 0b1110#4 => some (.orw src dest)
  | 0#1, 0b1111#4 => some (.subb src dest)
  | 1#1, 0b1111#4 => some (.subw src dest)
  | 1#1, 0b1011#4 => some (.tbit src dest)
  | _, _ => none

/-- Bcond, and BR for the code 1110 (`30_encoding.md` R110, `47_jumps.md` R215, R219). -/
def decodeBranch (c : BitVec 4) (disp : Disp) : Option Instr :=
  match c with
  | 0b0000#4 => some (.beq disp)
  | 0b0001#4 => some (.bne disp)
  | 0b0010#4 => some (.bcs disp)
  | 0b0011#4 => some (.bcc disp)
  | 0b0100#4 => some (.bhi disp)
  | 0b0101#4 => some (.bls disp)
  | 0b0110#4 => some (.bgt disp)
  | 0b0111#4 => some (.ble disp)
  | 0b1000#4 => some (.bfs disp)
  | 0b1001#4 => some (.bfc disp)
  | 0b1010#4 => some (.blo disp)
  | 0b1011#4 => some (.bhs disp)
  | 0b1100#4 => some (.blt disp)
  | 0b1101#4 => some (.bge disp)
  | 0b1110#4 => some (.br disp)
  | _ => none

/-- Jcond, and JUMP for the code 1110 (`30_encoding.md` R114, `47_jumps.md` R215, R233). -/
def decodeJump (c : BitVec 4) (target : Reg) : Option Instr :=
  match c with
  | 0b0000#4 => some (.jeq target)
  | 0b0001#4 => some (.jne target)
  | 0b0010#4 => some (.jcs target)
  | 0b0011#4 => some (.jcc target)
  | 0b0100#4 => some (.jhi target)
  | 0b0101#4 => some (.jls target)
  | 0b0110#4 => some (.jgt target)
  | 0b0111#4 => some (.jle target)
  | 0b1000#4 => some (.jfs target)
  | 0b1001#4 => some (.jfc target)
  | 0b1010#4 => some (.jlo target)
  | 0b1011#4 => some (.jhs target)
  | 0b1100#4 => some (.jlt target)
  | 0b1101#4 => some (.jge target)
  | 0b1110#4 => some (.jump target)
  | _ => none

/-- Scond: the codes 1110 and 1111 are not defined (`43_logical.md` R178). -/
def decodeScond (c : BitVec 4) (dest : Reg) : Option Instr :=
  match c with
  | 0b0000#4 => some (.seq dest)
  | 0b0001#4 => some (.sne dest)
  | 0b0010#4 => some (.scs dest)
  | 0b0011#4 => some (.scc dest)
  | 0b0100#4 => some (.shi dest)
  | 0b0101#4 => some (.sls dest)
  | 0b0110#4 => some (.sgt dest)
  | 0b0111#4 => some (.sle dest)
  | 0b1000#4 => some (.sfs dest)
  | 0b1001#4 => some (.sfc dest)
  | 0b1010#4 => some (.slo dest)
  | 0b1011#4 => some (.shs dest)
  | 0b1100#4 => some (.slt dest)
  | 0b1101#4 => some (.sge dest)
  | _ => none

/-- The address form of a load or a store (`30_encoding.md` R101, R105 to R109). -/
def decodeMode (w w2 : Word) : Mode :=
  if w.getLsbD 12 && w.getLsbD 0 then
    if w.getLsbD 11 then
      if fieldB w == 0b1111#4 then .abs (w.extractLsb' 9 2 ++ w2)
      else .farRel (Reg.ofCode (fieldB w)) (w.extractLsb' 9 2 ++ w2)
    else .relMedium (Reg.ofCode (fieldB w)) (w.extractLsb' 9 2 ++ w2)
  else .relShort (Reg.ofCode (fieldB w)) (fieldF w ++ fieldZ w)

/-- Format SP (`30_encoding.md` R98, R99): none where the word is undefined (Table A-2) or unspecified (R119). -/
def decodeSp (w : Word) : Option Instr :=
  match fieldF w with
  | 0b0100#4 => some (.movxb (Reg.ofCode (fieldB w)) (Reg.ofCode (fieldA w)))
  | 0b0101#4 => some (.movzb (Reg.ofCode (fieldB w)) (Reg.ofCode (fieldA w)))
  | 0b0111#4 => decodeScond (fieldA w) (Reg.ofCode (fieldB w))
  | 0b1000#4 => (ProcReg.ofCode (fieldA w)).map (.lpr (Reg.ofCode (fieldB w)))
  | 0b1001#4 => (ProcReg.ofCode (fieldA w)).map (.spr · (Reg.ofCode (fieldB w)))
  | 0b1100#4 => if fieldA w == 0b1111#4 && fieldB w == 0b1111#4 then some .retx else none
  | 0b1101#4 => if fieldA w == 0b1111#4 then some (.excp (fieldB w)) else none
  | 0b1110#4 =>
    if fieldA w == 0b1110#4 && fieldB w == 0b1111#4 then some .di
    else if fieldA w == 0b1111#4 && fieldB w == 0b1111#4 then some .ei
    else none
  | 0b1111#4 => if fieldA w == 0b1111#4 && fieldB w == 0b1111#4 then some .wait else none
  | _ => none

/-- The instruction of a first word that the formats of `30_encoding.md` R94 to R115 define, with its second word `w2` where
it has one; none for the words of R117 and R119. The word 0x0200 is NOP before it is `ADDUB $0, R0` (R122; log 32). -/
def decodeDefined (w w2 : Word) : Option Instr :=
  match fieldOp2 w with
  | 0b10#2 =>
    if fieldI w == 0#1 then some (.loadb (decodeMode w w2) (Reg.ofCode (fieldA w)))
    else some (.loadw (decodeMode w w2) (Reg.ofCode (fieldA w)))
  | 0b11#2 =>
    if fieldI w == 0#1 then some (.storb (Reg.ofCode (fieldA w)) (decodeMode w w2))
    else some (.storw (Reg.ofCode (fieldA w)) (decodeMode w w2))
  | 0b00#2 =>
    if w == 0x0200#16 then some .nop
    else if fieldF w == 0b1010#4 then
      if w.extractLsb' 0 4 == 0b1110#4 then
        if fieldI w == 0#1 then decodeBranch (fieldA w) (.medium (w.extractLsb' 4 1 ++ w2))
        else some (.bal (Reg.ofCode (fieldA w)) (w.extractLsb' 4 1 ++ w2))
      else none
    else
      decodeAlu (fieldI w) (fieldF w)
        (if fieldImm w == 0b10001#5 then .medium w2 else .short (fieldImm w)) (Reg.ofCode (fieldA w))
  | _ =>
    if fieldZ w == 1#1 then
      if fieldF w == 0b1010#4 then
        if fieldI w == 0#1 then decodeJump (fieldA w) (Reg.ofCode (fieldB w))
        else some (.jal (Reg.ofCode (fieldA w)) (Reg.ofCode (fieldB w)))
      else decodeAlu (fieldI w) (fieldF w) (.reg (Reg.ofCode (fieldB w))) (Reg.ofCode (fieldA w))
    else if fieldI w == 0#1 then decodeBranch (fieldA w) (.short (fieldF w ++ fieldImm w))
    else decodeSp w

/-- The instruction of a first word and its second word (`30_encoding.md` R116): a word that is not defined is `und` where
Table A-2 lists it (R117) and `unspecified` otherwise (R119). -/
def decodeWords (w w2 : Word) : Instr :=
  match decodeDefined w w2 with
  | some i => i
  | none => if isUndefinedWord w then .und w else .unspecified (if isLong w then .two w w2 else .one w)

/-- Why bytes are rejected: they end inside the instruction. -/
inductive DecodeError where
  /-- Fewer than two bytes: no first word. Safe. -/
  | noFirstWord
  /-- The first word asks for a second and the bytes end before it. Safe. -/
  | noSecondWord
  deriving DecidableEq, Repr

/-- A 16-bit instruction word from its two bytes, low byte first (`20_memory.md` R64, D1; log 1). -/
def wordOfBytes (low high : Byte) : Word := high ++ low

/-- The two bytes of an instruction word, low byte first (`20_memory.md` R64). -/
def bytesOfWord (w : Word) : List Byte := [w.extractLsb' 0 8, w.extractLsb' 8 8]

/-- The instruction at the head of a list of bytes, and the bytes after it. -/
def decode : List Byte → Except DecodeError (Instr × List Byte)
  | b0 :: b1 :: rest =>
    if isLong (wordOfBytes b0 b1) then
      match rest with
      | b2 :: b3 :: rest' => .ok (decodeWords (wordOfBytes b0 b1) (wordOfBytes b2 b3), rest')
      | _ => .error .noSecondWord
    else .ok (decodeWords (wordOfBytes b0 b1) 0#16, rest)
  | _ => .error .noFirstWord

/-- The four bytes of an opcode-table word: the first word's bits are `w`'s bits 15..0, the second's 31..16, and the bits
from `nbits` up are 0. -/
def tableBytes (nbits w : Nat) : List Byte :=
  bytesOfWord (BitVec.ofNat 16 (w % 2 ^ nbits)) ++ bytesOfWord (BitVec.ofNat 16 (w % 2 ^ nbits / 2 ^ 16))

/-- The instruction the decoder reads from an opcode-table word of `nbits` bits. -/
def decodeTableWord (nbits w : Nat) : Option Instr :=
  match decode (tableBytes nbits w) with
  | .ok (i, _) => some i
  | .error _ => none

/-! ### Encoding -/

/-- Formats RR, IS and IM (`30_encoding.md` R94, R95, R96). -/
def encodeAlu (i : BitVec 1) (f : BitVec 4) (dest : Reg) : Src → List Word
  | .reg r => [packWord 0b01#2 i f dest.code r.code 1#1]
  | .short imm => [0b00#2 ++ i ++ f ++ dest.code ++ imm]
  | .medium imm => [0b00#2 ++ i ++ f ++ dest.code ++ 0b10001#5, imm]

/-- Format SP (`30_encoding.md` R98, R99). -/
def encodeSp (f a b : BitVec 4) : List Word := [packWord 0b01#2 1#1 f a b 0#1]

/-- Formats BR-S and BR-M (`30_encoding.md` R111, R112). -/
def encodeBranch (cond : BitVec 4) : Disp → List Word
  | .short d => [0b01#2 ++ 0#1 ++ d.extractLsb' 5 4 ++ cond ++ d.extractLsb' 0 5]
  | .medium d => [0b00#2 ++ 0#1 ++ 0b1010#4 ++ cond ++ d.extractLsb' 16 1 ++ 0b1110#4, d.extractLsb' 0 16]

/-- Formats J and JAL (`30_encoding.md` R114, R115). -/
def encodeJump (i : BitVec 1) (a : BitVec 4) (target : Reg) : List Word :=
  [packWord 0b01#2 i 0b1010#4 a target.code 1#1]

/-- Formats LS-S, LS-M, LS-F and LS-A (`30_encoding.md` R100, R105, R107 to R109). -/
def encodeLoadStore (op2 : BitVec 2) (i : BitVec 1) (r : Reg) : Mode → List Word
  | .relShort base d => [packWord op2 i (d.extractLsb' 1 4) r.code base.code (d.extractLsb' 0 1)]
  | .relMedium base d => [packWord op2 i (0b10#2 ++ d.extractLsb' 16 2) r.code base.code 1#1, d.extractLsb' 0 16]
  | .farRel pair d => [packWord op2 i (0b11#2 ++ d.extractLsb' 16 2) r.code pair.code 1#1, d.extractLsb' 0 16]
  | .abs d => [packWord op2 i (0b11#2 ++ d.extractLsb' 16 2) r.code 0b1111#4 1#1, d.extractLsb' 0 16]

/-- The words of an instruction, the first at the lower address (`30_encoding.md` R94 to R115, `47_jumps.md`,
`48_loadstore.md`). -/
def encode : Instr → List Word
  | .movb src dest => encodeAlu 0#1 0b1100#4 dest src
  | .movw src dest => encodeAlu 1#1 0b1100#4 dest src
  | .movxb src dest => encodeSp 0b0100#4 dest.code src.code
  | .movzb src dest => encodeSp 0b0101#4 dest.code src.code
  | .addb src dest => encodeAlu 0#1 0b0000#4 dest src
  | .addw src dest => encodeAlu 1#1 0b0000#4 dest src
  | .addub src dest => encodeAlu 0#1 0b0001#4 dest src
  | .adduw src dest => encodeAlu 1#1 0b0001#4 dest src
  | .addcb src dest => encodeAlu 0#1 0b1001#4 dest src
  | .addcw src dest => encodeAlu 1#1 0b1001#4 dest src
  | .mulb src dest => encodeAlu 0#1 0b0011#4 dest src
  | .mulw src dest => encodeAlu 1#1 0b0011#4 dest src
  | .subb src dest => encodeAlu 0#1 0b1111#4 dest src
  | .subw src dest => encodeAlu 1#1 0b1111#4 dest src
  | .subcb src dest => encodeAlu 0#1 0b1101#4 dest src
  | .subcw src dest => encodeAlu 1#1 0b1101#4 dest src
  | .cmpb src dest => encodeAlu 0#1 0b0111#4 dest src
  | .cmpw src dest => encodeAlu 1#1 0b0111#4 dest src
  | .andb src dest => encodeAlu 0#1 0b1000#4 dest src
  | .andw src dest => encodeAlu 1#1 0b1000#4 dest src
  | .orb src dest => encodeAlu 0#1 0b1110#4 dest src
  | .orw src dest => encodeAlu 1#1 0b1110#4 dest src
  | .xorb src dest => encodeAlu 0#1 0b0110#4 dest src
  | .xorw src dest => encodeAlu 1#1 0b0110#4 dest src
  | .seq dest => encodeSp 0b0111#4 0b0000#4 dest.code
  | .sne dest => encodeSp 0b0111#4 0b0001#4 dest.code
  | .scs dest => encodeSp 0b0111#4 0b0010#4 dest.code
  | .scc dest => encodeSp 0b0111#4 0b0011#4 dest.code
  | .shi dest => encodeSp 0b0111#4 0b0100#4 dest.code
  | .sls dest => encodeSp 0b0111#4 0b0101#4 dest.code
  | .sgt dest => encodeSp 0b0111#4 0b0110#4 dest.code
  | .sle dest => encodeSp 0b0111#4 0b0111#4 dest.code
  | .sfs dest => encodeSp 0b0111#4 0b1000#4 dest.code
  | .sfc dest => encodeSp 0b0111#4 0b1001#4 dest.code
  | .slo dest => encodeSp 0b0111#4 0b1010#4 dest.code
  | .shs dest => encodeSp 0b0111#4 0b1011#4 dest.code
  | .slt dest => encodeSp 0b0111#4 0b1100#4 dest.code
  | .sge dest => encodeSp 0b0111#4 0b1101#4 dest.code
  | .ashub src dest => encodeAlu 0#1 0b0100#4 dest src
  | .ashuw src dest => encodeAlu 1#1 0b0100#4 dest src
  | .lshb src dest => encodeAlu 0#1 0b0101#4 dest src
  | .lshw src dest => encodeAlu 1#1 0b0101#4 dest src
  | .tbit src dest => encodeAlu 1#1 0b1011#4 dest src
  | .lpr src dest => encodeSp 0b1000#4 dest.code src.code
  | .spr src dest => encodeSp 0b1001#4 src.code dest.code
  | .beq disp => encodeBranch 0b0000#4 disp
  | .bne disp => encodeBranch 0b0001#4 disp
  | .bcs disp => encodeBranch 0b0010#4 disp
  | .bcc disp => encodeBranch 0b0011#4 disp
  | .bhi disp => encodeBranch 0b0100#4 disp
  | .bls disp => encodeBranch 0b0101#4 disp
  | .bgt disp => encodeBranch 0b0110#4 disp
  | .ble disp => encodeBranch 0b0111#4 disp
  | .bfs disp => encodeBranch 0b1000#4 disp
  | .bfc disp => encodeBranch 0b1001#4 disp
  | .blo disp => encodeBranch 0b1010#4 disp
  | .bhs disp => encodeBranch 0b1011#4 disp
  | .blt disp => encodeBranch 0b1100#4 disp
  | .bge disp => encodeBranch 0b1101#4 disp
  | .br disp => encodeBranch 0b1110#4 disp
  | .bal link d => [0b00#2 ++ 1#1 ++ 0b1010#4 ++ link.code ++ d.extractLsb' 16 1 ++ 0b1110#4, d.extractLsb' 0 16]
  | .excp vector => encodeSp 0b1101#4 0b1111#4 vector
  | .jeq target => encodeJump 0#1 0b0000#4 target
  | .jne target => encodeJump 0#1 0b0001#4 target
  | .jcs target => encodeJump 0#1 0b0010#4 target
  | .jcc target => encodeJump 0#1 0b0011#4 target
  | .jhi target => encodeJump 0#1 0b0100#4 target
  | .jls target => encodeJump 0#1 0b0101#4 target
  | .jgt target => encodeJump 0#1 0b0110#4 target
  | .jle target => encodeJump 0#1 0b0111#4 target
  | .jfs target => encodeJump 0#1 0b1000#4 target
  | .jfc target => encodeJump 0#1 0b1001#4 target
  | .jlo target => encodeJump 0#1 0b1010#4 target
  | .jhs target => encodeJump 0#1 0b1011#4 target
  | .jlt target => encodeJump 0#1 0b1100#4 target
  | .jge target => encodeJump 0#1 0b1101#4 target
  | .jump target => encodeJump 0#1 0b1110#4 target
  | .jal link target => encodeJump 1#1 link.code target
  | .retx => encodeSp 0b1100#4 0b1111#4 0b1111#4
  | .loadb src dest => encodeLoadStore 0b10#2 0#1 dest src
  | .loadw src dest => encodeLoadStore 0b10#2 1#1 dest src
  | .storb src dest => encodeLoadStore 0b11#2 0#1 src dest
  | .storw src dest => encodeLoadStore 0b11#2 1#1 src dest
  | .di => encodeSp 0b1110#4 0b1110#4 0b1111#4
  | .ei => encodeSp 0b1110#4 0b1111#4 0b1111#4
  | .nop => [0b0000001000000000#16]
  | .wait => encodeSp 0b1111#4 0b1111#4 0b1111#4
  | .und word => [word]
  | .unspecified (.one w) => [w]
  | .unspecified (.two w w2) => [w, w2]

/-- The bytes of an instruction, in the order memory holds them (`20_memory.md` R64). -/
def encodeBytes (i : Instr) : List Byte := (encode i).flatMap bytesOfWord

end Sys2Proof
end

