-- ==== Sys2Proof/Machine/Fetch.lean ====
section
/-! DEFINITION. Fetching the instruction at the PC (`20_memory.md` R64, R76 to R79), and placing one there. -/

namespace Sys2Proof.Machine

/-- The bytes an address held before each store to it since the last serializing operation. -/
def staleBytes (u : List Host.Cell) (a : Nat) : List Byte := (u.filter fun c => c.1 == a).map Prod.snd

/-- The byte a fetch sees: the one its address holds, or, after a store that no serializing operation followed, any of the bytes
the address has held since then, by a free choice (`20_memory.md` R79, D20; log 20). -/
def fetchByte (s : State) (a : Addr) : Byte :=
  match staleBytes s.unserialized a.toNat with
  | [] => s.byteAt a
  | old =>
    (s.byteAt a :: old).getD (Config.freeStaleChoice s.draws a.toNat % (old.length + 1)) (s.byteAt a)

/-- Fetch one 16-bit instruction word (`20_memory.md` R64). -/
def fetchWord (s : State) (a : Addr) : Res Word :=
  andThen (checkWord s .read a) fun _ => .next (wordOfBytes (fetchByte s a) (fetchByte s (a + 1#18)))

/-- Fetch and decode the instruction at the PC: the first word says whether there is a second, and a second word beyond
1FFFE hex is refused (`30_encoding.md` R91, `10_state.md` R27, D10; log 10). -/
def fetchInstr (s : State) : Res Instr :=
  andThen (fetchWord s s.pc) fun w =>
  if isLong w then
    if 0x1FFFE ≤ s.pc.toNat then .refused .secondWordOutsideProgram
    else andThen (fetchWord s (s.pc + 2#18)) fun w2 => .next (decodeWords w w2)
  else .next (decodeWords w 0#16)

/-- Bytes written from an address on, from outside the machine: no store of the core, so nothing stale is left of what those
addresses held. -/
def placeBytes (s : State) (a : Addr) : List Byte → State
  | [] => s
  | b :: rest =>
    placeBytes { s with
      mem := writeCell s.mem a.toNat b
      unserialized := s.unserialized.filter fun c => c.1 != a.toNat } (a + 1#18) rest

/-- The coming sample without its requests; what it says of devices and the later samples stay. -/
def quietSample : List Sample → List Sample
  | [] => []
  | x :: rest => { Sample.none with devices := x.devices } :: rest

/-- An opcode-table word at the PC, with nothing in the way of its fetch: no request at the coming boundary, not waiting, no
trace trap pending (log 35). -/
def placeTableWord (s : State) (nbits w : Nat) : State :=
  { placeBytes s s.pc (tableBytes nbits w) with
    inputs := quietSample s.inputs
    waiting := false
    psr := { s.psr with p := false } }

end Sys2Proof.Machine
end

