-- ==== Sys2Proof/Machine/Step.lean ====
section
/-! DEFINITION. One step of the core (`60_exceptions.md` R305, `00_scope.md` R11). -/

namespace Sys2Proof.Machine

/-- One pass through the flow of `60_exceptions.md` R305: the step boundary's sample is consumed, and then reset, an exception,
idling, or the instruction at the PC, begun by copying PSR.T to PSR.P. -/
def step (s : State) : Host.Outcome State Fault Refusal :=
  match nextEvent s with
  | .reset => .next (warmReset s.tick)
  | .exception k => enter k s.tick
  | .idle => .next s.tick
  | .instruction => andThen (fetchInstr s.tick.copyTrace) fun i => exec i s.tick.copyTrace

/-- The state with an opcode-table word placed where the next step fetches its instruction (log 35). -/
def State.withFetchWord (s : State) (nbits w : Nat) : State := placeTableWord s nbits w

end Sys2Proof.Machine
end

