-- ==== Sys2Proof/Safety.lean ====
section
/-! DEFINITION. The terms claims use: the legal states, what an instruction leaves alone, and safe runs. -/

namespace Sys2Proof.Machine

/-- The bits of the PC that are always 0 (`10_state.md` R25). -/
abbrev pcLegal (a : Addr) : Prop := a.getLsbD 17 = false ∧ a.getLsbD 0 = false

/-- The bits of ISP and INTBASE that are always 0 (`10_state.md` R28, R29). -/
abbrev dedicatedLegal (a : Addr) : Prop := a.getLsbD 17 = false ∧ a.getLsbD 16 = false ∧ a.getLsbD 0 = false

/-- The states the machine can be in: the constant bits of PC, ISP and INTBASE are 0, memory has its canonical form, and CFG,
which only reset writes, is 0 (`10_state.md` R25, R28, R29, R42). -/
abbrev State.Legal (s : State) : Prop :=
  pcLegal s.pc ∧ dedicatedLegal s.isp ∧ dedicatedLegal s.intbase ∧ Memory.wf s.mem = true ∧ s.cfg = 0x0000#16

/-- Everything but the general registers, the PSR, the PC, memory and what a fetch may still see of it is unchanged. -/
def SameControl (s t : State) : Prop :=
  t.isp = s.isp ∧ t.intbase = s.intbase ∧ t.cfg = s.cfg ∧ t.waiting = s.waiting ∧ t.memMap = s.memMap ∧
    t.inputs = s.inputs ∧ t.devices = s.devices ∧ t.bus = s.bus ∧ t.draws = s.draws

/-- Every byte reads as before, memory's and a device's, and an instruction fetch sees what it saw before. -/
def SameMemory (s t : State) : Prop := (∀ a : Addr, t.byteAt a = s.byteAt a) ∧ t.unserialized = s.unserialized

/-- Every general register is unchanged. -/
def SameRegs (s t : State) : Prop := ∀ r : Reg, t.reg r = s.reg r

/-- Every general register but one is unchanged. -/
def SameRegsBut (d : Reg) (s t : State) : Prop := ∀ r : Reg, r ≠ d → t.reg r = s.reg r

/-- A word result in `d`: the register holds `v`, the PSR is `p`, the PC is at the next instruction, and the rest is
unchanged. -/
def WordResult (d : Reg) (v : Word) (p : Psr) (len : Nat) (s t : State) : Prop :=
  t.reg d = v ∧ SameRegsBut d s t ∧ t.psr = p ∧ t.pc = nextPc s.pc len ∧ SameMemory s t ∧ SameControl s t

/-- A byte result in `d`: bits 7..0 of the register hold `v`, bits 15..8 are unchanged, the PSR is `p`, the PC is at the next
instruction, and the rest is unchanged. -/
def ByteResult (d : Reg) (v : Byte) (p : Psr) (len : Nat) (s t : State) : Prop :=
  (t.reg d).extractLsb' 0 8 = v ∧ (t.reg d).extractLsb' 8 8 = (s.reg d).extractLsb' 8 8 ∧ SameRegsBut d s t ∧
    t.psr = p ∧ t.pc = nextPc s.pc len ∧ SameMemory s t ∧ SameControl s t

/-- No general register is written: the PSR is `p`, the PC is `pc`, and the rest is unchanged. -/
def NoRegResult (p : Psr) (pc : Addr) (s t : State) : Prop :=
  SameRegs s t ∧ t.psr = p ∧ t.pc = pc ∧ SameMemory s t ∧ SameControl s t

/-- The three encodings of a basic-format instruction with length bit `i` and op code `f` (`30_encoding.md` R94 to R96). -/
def BasicEncoding (mk : Src → Reg → Instr) (i : BitVec 1) (f : BitVec 4) : Prop :=
  ∀ d : Reg,
    (∀ r : Reg, encode (mk (.reg r) d) = [0b01#2 ++ i ++ f ++ d.code ++ r.code ++ 1#1]) ∧
    (∀ imm : BitVec 5, encode (mk (.short imm) d) = [0b00#2 ++ i ++ f ++ d.code ++ imm]) ∧
    (∀ imm : Word, encode (mk (.medium imm) d) = [0b00#2 ++ i ++ f ++ d.code ++ 0b10001#5, imm])

/-- Two bytes can be read, respectively written, at an address: neither is reserved or absent, nor, for a write, read-only,
and the second exists (`48_loadstore.md` R252). -/
def WordAccessible (s : State) (acc : Access) (a : Addr) : Prop := checkWord s acc a = .next ()

/-- One byte can be read, respectively written, at an address (`48_loadstore.md` R252). -/
def ByteAccessible (s : State) (acc : Access) (a : Addr) : Prop := checkAccess s acc a = .next ()

/-- What a byte store at an address leaves there: the byte, unless a device's, whose contents are an input
(`20_memory.md` R63, `00_scope.md` R12). -/
def ByteStored (a : Addr) (v : Byte) (s t : State) : Prop :=
  t.byteAt a = if isDevice s.memMap a then s.byteAt a else v

/-- What a word store leaves: its low byte at the address and its high byte at the next (`20_memory.md` R63). -/
def WordStored (a : Addr) (v : Word) (s t : State) : Prop :=
  ByteStored a (v.extractLsb' 0 8) s t ∧ ByteStored (a + 1#18) (v.extractLsb' 8 8) s t

/-- Neither byte of a word is a device's. -/
def WordInMemory (s : State) (a : Addr) : Prop := isDevice s.memMap a = false ∧ isDevice s.memMap (a + 1#18) = false

/-! ### Conditions (`47_jumps.md` R215) -/

/-- The 4-bit code of a condition (`47_jumps.md` R215). -/
def condCode : Cond → BitVec 4
  | .eq => 0b0000#4
  | .ne => 0b0001#4
  | .cs => 0b0010#4
  | .cc => 0b0011#4
  | .hi => 0b0100#4
  | .ls => 0b0101#4
  | .gt => 0b0110#4
  | .le => 0b0111#4
  | .fs => 0b1000#4
  | .fc => 0b1001#4
  | .lo => 0b1010#4
  | .hs => 0b1011#4
  | .lt => 0b1100#4
  | .ge => 0b1101#4

/-- The fourteen instructions of Bcond: BEQ, BNE, BCS, BCC, BHI, BLS, BGT, BLE, BFS, BFC, BLO, BHS, BLT, BGE. -/
def bcond : Cond → Disp → Instr
  | .eq => .beq
  | .ne => .bne
  | .cs => .bcs
  | .cc => .bcc
  | .hi => .bhi
  | .ls => .bls
  | .gt => .bgt
  | .le => .ble
  | .fs => .bfs
  | .fc => .bfc
  | .lo => .blo
  | .hs => .bhs
  | .lt => .blt
  | .ge => .bge

/-- The fourteen instructions of Jcond: JEQ, JNE, JCS, JCC, JHI, JLS, JGT, JLE, JFS, JFC, JLO, JHS, JLT, JGE. -/
def jcond : Cond → Reg → Instr
  | .eq => .jeq
  | .ne => .jne
  | .cs => .jcs
  | .cc => .jcc
  | .hi => .jhi
  | .ls => .jls
  | .gt => .jgt
  | .le => .jle
  | .fs => .jfs
  | .fc => .jfc
  | .lo => .jlo
  | .hs => .jhs
  | .lt => .jlt
  | .ge => .jge

/-- The fourteen instructions of Scond: SEQ, SNE, SCS, SCC, SHI, SLS, SGT, SLE, SFS, SFC, SLO, SHS, SLT, SGE. -/
def scond : Cond → Reg → Instr
  | .eq => .seq
  | .ne => .sne
  | .cs => .scs
  | .cc => .scc
  | .hi => .shi
  | .ls => .sls
  | .gt => .sgt
  | .le => .sle
  | .fs => .sfs
  | .fc => .sfc
  | .lo => .slo
  | .hs => .shs
  | .lt => .slt
  | .ge => .sge

/-! ### Exceptions (`60_exceptions.md` R296 to R298) -/

/-- A word is an image of a PSR: the nine fields in their bits, bits 3, 4 and 8 zero, bits 15..12 anything
(`46_procreg.md` R209). -/
def PsrImage (p : Psr) (w : Word) : Prop :=
  w.getLsbD 0 = p.c ∧ w.getLsbD 1 = p.t ∧ w.getLsbD 2 = p.l ∧ w.getLsbD 3 = false ∧ w.getLsbD 4 = false ∧
    w.getLsbD 5 = p.f ∧ w.getLsbD 6 = p.z ∧ w.getLsbD 7 = p.n ∧ w.getLsbD 8 = false ∧ w.getLsbD 9 = p.e ∧
    w.getLsbD 10 = p.p ∧ w.getLsbD 11 = p.i

/-- What the entry into an exception of a vector needs: ISP is at least 4, the two words below it can be written, and the
dispatch-table entry can be read (`60_exceptions.md` R296, R309). -/
def ReadyForEntry (vector : Nat) (s : State) : Prop :=
  4 ≤ s.isp.toNat ∧ WordAccessible s .write (s.isp - 4#18) ∧ WordAccessible s .write (s.isp - 2#18) ∧
    WordAccessible s .read (s.intbase + BitVec.ofNat 18 (2 * vector))

/-- The exception of a vector has been taken: ISP is 4 lower, bits 16..1 of the PC have been stored there and an image of the
PSR `saved` above it, no other byte changed, the PSR is `after`, the PC comes from the dispatch table, waiting has ended, the
core has serialized, devices have seen the two pushes, the acknowledge cycle `ack` and the table read, in that order, and no
other register changed (`60_exceptions.md` R296, R297, R298; of the pushes only those to a device, and their order, by the
spec's pseudocode: log 37). -/
def ExceptionTaken (vector : Nat) (saved after : Psr) (ack : List BusAccess) (s t : State) : Prop :=
  t.isp = s.isp - 4#18 ∧
    (∃ image : Word, PsrImage saved image ∧ WordStored (s.isp - 4#18) (s.pc.extractLsb' 1 16) s t ∧
      WordStored (s.isp - 2#18) image s t ∧
      t.bus = (BusAccess.readWord (s.intbase + BitVec.ofNat 18 (2 * vector))).seen s.memMap ++
        (ack ++ ((BusAccess.writeWord (s.isp - 2#18) image).seen s.memMap ++
          ((BusAccess.writeWord (s.isp - 4#18) (s.pc.extractLsb' 1 16)).seen s.memMap ++ s.bus)))) ∧
    (∀ a : Addr, a ≠ s.isp - 4#18 → a ≠ s.isp - 3#18 → a ≠ s.isp - 2#18 → a ≠ s.isp - 1#18 → t.byteAt a = s.byteAt a) ∧
    t.psr = after ∧ t.pc = 0#1 ++ t.wordAt (s.intbase + BitVec.ofNat 18 (2 * vector)) ++ 0#1 ∧
    t.waiting = false ∧ t.unserialized = [] ∧ SameRegs s t ∧ t.intbase = s.intbase ∧ t.cfg = s.cfg ∧
    t.memMap = s.memMap ∧ t.inputs = s.inputs ∧ t.devices = s.devices ∧ t.draws = s.draws

/-- Nothing is requested from outside at this step boundary that the machine would accept (`60_exceptions.md` R301). -/
def Quiet (s : State) : Prop :=
  s.sample.reset = false ∧ s.sample.nmi = false ∧ (s.sample.irq && s.psr.e && s.psr.i) = false ∧ s.sample.ise = false

/-! ### Which register an instruction names as its destination -/

/-- The general register an instruction writes, as destination or link (`10_state.md` R24). -/
def destReg : Instr → Option Reg
  | .movb _ dest => some dest
  | .movw _ dest => some dest
  | .movxb _ dest => some dest
  | .movzb _ dest => some dest
  | .addb _ dest => some dest
  | .addw _ dest => some dest
  | .addub _ dest => some dest
  | .adduw _ dest => some dest
  | .addcb _ dest => some dest
  | .addcw _ dest => some dest
  | .mulb _ dest => some dest
  | .mulw _ dest => some dest
  | .subb _ dest => some dest
  | .subw _ dest => some dest
  | .subcb _ dest => some dest
  | .subcw _ dest => some dest
  | .cmpb _ _ => none
  | .cmpw _ _ => none
  | .andb _ dest => some dest
  | .andw _ dest => some dest
  | .orb _ dest => some dest
  | .orw _ dest => some dest
  | .xorb _ dest => some dest
  | .xorw _ dest => some dest
  | .seq dest => some dest
  | .sne dest => some dest
  | .scs dest => some dest
  | .scc dest => some dest
  | .shi dest => some dest
  | .sls dest => some dest
  | .sgt dest => some dest
  | .sle dest => some dest
  | .sfs dest => some dest
  | .sfc dest => some dest
  | .slo dest => some dest
  | .shs dest => some dest
  | .slt dest => some dest
  | .sge dest => some dest
  | .ashub _ dest => some dest
  | .ashuw _ dest => some dest
  | .lshb _ dest => some dest
  | .lshw _ dest => some dest
  | .tbit _ _ => none
  | .lpr _ _ => none
  | .spr _ dest => some dest
  | .beq _ => none
  | .bne _ => none
  | .bcs _ => none
  | .bcc _ => none
  | .bhi _ => none
  | .bls _ => none
  | .bgt _ => none
  | .ble _ => none
  | .bfs _ => none
  | .bfc _ => none
  | .blo _ => none
  | .bhs _ => none
  | .blt _ => none
  | .bge _ => none
  | .br _ => none
  | .bal link _ => some link
  | .excp _ => none
  | .jeq _ => none
  | .jne _ => none
  | .jcs _ => none
  | .jcc _ => none
  | .jhi _ => none
  | .jls _ => none
  | .jgt _ => none
  | .jle _ => none
  | .jfs _ => none
  | .jfc _ => none
  | .jlo _ => none
  | .jhs _ => none
  | .jlt _ => none
  | .jge _ => none
  | .jump _ => none
  | .jal link _ => some link
  | .retx => none
  | .loadb _ dest => some dest
  | .loadw _ dest => some dest
  | .storb _ _ => none
  | .storw _ _ => none
  | .di => none
  | .ei => none
  | .nop => none
  | .wait => none
  | .und _ => none
  | .unspecified _ => none

/-! ### Kinds of instructions -/

/-- LPR to the PSR and RETX: the instructions that load the whole PSR (`10_state.md` R30). -/
def loadsPsr : Instr → Bool
  | .lpr _ .psr => true
  | .retx => true
  | _ => false

/-- EXCP and the words of Table A-2: the instructions that take a trap (`60_exceptions.md` R285, `47_jumps.md` R230). -/
def entersTrap : Instr → Bool
  | .excp _ => true
  | .und _ => true
  | _ => false

/-- CMPi. -/
def compares : Instr → Bool
  | .cmpb _ _ => true
  | .cmpw _ _ => true
  | _ => false

/-- ADDi, ADDCi, SUBi and SUBCi (`41_arithmetic.md` R158). -/
def addsOrSubtracts : Instr → Bool
  | .addb _ _ => true
  | .addw _ _ => true
  | .addcb _ _ => true
  | .addcw _ _ => true
  | .subb _ _ => true
  | .subw _ _ => true
  | .subcb _ _ => true
  | .subcw _ _ => true
  | _ => false

/-- STORi. -/
def storesData : Instr → Bool
  | .storb _ _ => true
  | .storw _ _ => true
  | _ => false

/-- LOADi, STORi and RETX, the instructions with a data reference of their own (`20_memory.md` R60). -/
def referencesData : Instr → Bool
  | .loadb _ _ => true
  | .loadw _ _ => true
  | .storb _ _ => true
  | .storw _ _ => true
  | .retx => true
  | _ => false

/-- LPR, RETX and what takes a trap: the serializing instructions (`70_reset_and_hazards.md` R347). -/
def serializes : Instr → Bool
  | .lpr _ _ => true
  | .retx => true
  | .excp _ => true
  | .und _ => true
  | _ => false

/-- A run of `k` steps meets no fault and no refusal. -/
def SafeRun (k : Nat) (s : State) : Prop := ∃ t : State, Sys2Proof.core.run k s = .next t

end Sys2Proof.Machine
end

