-- ==== Sys2Proof/Certificates/Slice0/Obligations.lean ====
section
/-! DEFINITION. The statements for the provers. Each docstring names the rules of `spec/` it formalises; where a clause rests
on a decision or an inference of the spec or of this model, it names the log entry. `nextPc s.pc len` is the address of the
next sequential instruction (`00_scope.md` R14), at the top of program memory by D4 (log 4), in every statement. -/

open Sys2Proof Sys2Proof.Machine

/-! ### Encoding -/

/-- Decoding the bytes of a well-formed instruction, whatever follows them, gives that instruction and what follows. The byte
order of an instruction word is D1 (log 1); the word 0x0200 is NOP (log 32). -/
def Obligations.DecodeOfEncode : Prop :=
  ∀ (i : Instr) (rest : List Byte), i.wellFormed = true → decode (encodeBytes i ++ rest) = .ok (i, rest)

/-- Every first word decodes, and encoding gives back the words that were decoded; the instruction is well-formed unless its
second word is odd (only a branch is then not: log 17). -/
def Obligations.EncodeOfDecode : Prop :=
  ∀ w w2 : Word,
    encode (decodeWords w w2) = (if isLong w then [w, w2] else [w]) ∧
      (w2.getLsbD 0 = false → (decodeWords w w2).wellFormed = true)

/-- Which first words have a second word: the three cases of `30_encoding.md` R91. -/
def Obligations.SecondWordByFirstWord : Prop :=
  ∀ w : Word,
    isLong w = true ↔
      (w.extractLsb' 14 2 = 0b00#2 ∧ w.extractLsb' 9 4 ≠ 0b1010#4 ∧ w.extractLsb' 9 4 ≠ 0b0010#4 ∧
          ¬(w.extractLsb' 9 4 = 0b1011#4 ∧ w.getLsbD 13 = false) ∧ w.extractLsb' 0 5 = 0b10001#5) ∨
        (w.extractLsb' 14 2 = 0b00#2 ∧ w.extractLsb' 9 4 = 0b1010#4 ∧ w.extractLsb' 0 4 = 0b1110#4) ∨
        (w.getLsbD 15 = true ∧ w.getLsbD 12 = true ∧ w.getLsbD 0 = true)

/-- The words that decode to `und` are those of the eight rows of Table A-2, row by row (`30_encoding.md` R117). -/
def Obligations.UndefinedWords : Prop :=
  ∀ w w2 : Word,
    decodeWords w w2 = .und w ↔
      (w.extractLsb' 14 2 = 0b00#2 ∧ w.getLsbD 13 = false ∧ w.extractLsb' 9 4 = 0b1011#4) ∨
        (w.extractLsb' 14 2 = 0b00#2 ∧ w.extractLsb' 9 4 = 0b1010#4 ∧ w.getLsbD 0 = true) ∨
        (w.extractLsb' 14 2 = 0b00#2 ∧ w.extractLsb' 9 4 = 0b0010#4) ∨
        (w.extractLsb' 14 2 = 0b01#2 ∧ w.extractLsb' 9 4 = 0b0010#4 ∧ w.getLsbD 0 = true) ∨
        (w.extractLsb' 14 2 = 0b01#2 ∧ w.getLsbD 13 = true ∧ w.extractLsb' 9 4 = 0b0110#4 ∧ w.getLsbD 0 = false) ∨
        (w.extractLsb' 14 2 = 0b01#2 ∧ w.getLsbD 13 = true ∧ w.extractLsb' 11 2 = 0b00#2 ∧ w.getLsbD 0 = false) ∨
        (w.extractLsb' 14 2 = 0b01#2 ∧ w.getLsbD 13 = true ∧ w.extractLsb' 10 3 = 0b101#3 ∧ w.getLsbD 0 = false) ∨
        (w.extractLsb' 14 2 = 0b01#2 ∧ w.getLsbD 13 = false ∧ w.extractLsb' 9 4 = 0b1011#4 ∧ w.getLsbD 0 = true)

/-- The words that decode to `unspecified` are those of `30_encoding.md` R119, each kept with the words it was decoded from,
and executing one is refused, in every state: the one instruction that always stops (D7, log 7). -/
def Obligations.UnspecifiedWordsStop : Prop :=
  (∀ w w2 : Word,
    decodeWords w w2 = .unspecified (if isLong w then .two w w2 else .one w) ↔
      (w.extractLsb' 14 2 = 0b00#2 ∧ w.extractLsb' 9 4 = 0b1010#4 ∧ w.getLsbD 0 = false ∧
          (w.extractLsb' 1 3 ≠ 0b111#3 ∨ (w.getLsbD 13 = false ∧ w.extractLsb' 5 4 = 0b1111#4))) ∨
        (w.extractLsb' 14 2 = 0b01#2 ∧ w.getLsbD 13 = false ∧ w.getLsbD 0 = false ∧ w.extractLsb' 5 4 = 0b1111#4) ∨
        (w.extractLsb' 14 2 = 0b01#2 ∧ w.getLsbD 13 = false ∧ w.extractLsb' 9 4 = 0b1010#4 ∧ w.getLsbD 0 = true ∧
          w.extractLsb' 5 4 = 0b1111#4) ∨
        (w.extractLsb' 14 2 = 0b01#2 ∧ w.getLsbD 13 = true ∧ w.getLsbD 0 = false ∧
          ((w.extractLsb' 9 4 = 0b0111#4 ∧ w.extractLsb' 6 3 = 0b111#3) ∨
            (w.extractLsb' 10 3 = 0b100#3 ∧ w.extractLsb' 5 4 ≠ 0b0001#4 ∧ w.extractLsb' 5 4 ≠ 0b0011#4 ∧
              w.extractLsb' 5 4 ≠ 0b1011#4) ∨
            (w.extractLsb' 9 4 = 0b1100#4 ∧ w.extractLsb' 1 8 ≠ 0b11111111#8) ∨
            (w.extractLsb' 9 4 = 0b1101#4 ∧ w.extractLsb' 5 4 ≠ 0b1111#4) ∨
            (w.extractLsb' 9 4 = 0b1110#4 ∧ w.extractLsb' 1 8 ≠ 0b11101111#8 ∧ w.extractLsb' 1 8 ≠ 0b11111111#8) ∨
            (w.extractLsb' 9 4 = 0b1111#4 ∧ w.extractLsb' 1 8 ≠ 0b11111111#8)))) ∧
    ∀ (words : Words) (s : State), exec (.unspecified words) s = .refused .unspecifiedEncoding

/-- The op code field of the instructions of the basic formats, in all three formats (`30_encoding.md` R94 to R97). -/
def Obligations.BasicFormatOpCodes : Prop :=
  BasicEncoding .addb 0 0b0000 ∧ BasicEncoding .addw 1 0b0000 ∧ BasicEncoding .addub 0 0b0001 ∧
    BasicEncoding .adduw 1 0b0001 ∧ BasicEncoding .mulb 0 0b0011 ∧ BasicEncoding .mulw 1 0b0011 ∧
    BasicEncoding .ashub 0 0b0100 ∧ BasicEncoding .ashuw 1 0b0100 ∧ BasicEncoding .lshb 0 0b0101 ∧
    BasicEncoding .lshw 1 0b0101 ∧ BasicEncoding .xorb 0 0b0110 ∧ BasicEncoding .xorw 1 0b0110 ∧
    BasicEncoding .cmpb 0 0b0111 ∧ BasicEncoding .cmpw 1 0b0111 ∧ BasicEncoding .andb 0 0b1000 ∧
    BasicEncoding .andw 1 0b1000 ∧ BasicEncoding .addcb 0 0b1001 ∧ BasicEncoding .addcw 1 0b1001 ∧
    BasicEncoding .tbit 1 0b1011 ∧ BasicEncoding .movb 0 0b1100 ∧ BasicEncoding .movw 1 0b1100 ∧
    BasicEncoding .subcb 0 0b1101 ∧ BasicEncoding .subcw 1 0b1101 ∧ BasicEncoding .orb 0 0b1110 ∧
    BasicEncoding .orw 1 0b1110 ∧ BasicEncoding .subb 0 0b1111 ∧ BasicEncoding .subw 1 0b1111

/-- Words written out from the encodings of the spec, at least one of every family, decode to what they stand for
(`95_test_vectors.md` part 1; the manual's own assembly or the spec's reconstruction). -/
def Obligations.ManualWordsDecode : Prop :=
  (∀ w2 : Word, decodeWords 0b0111100011000001#16 w2 = .movw (.reg .r0) .r6) ∧
    (∀ w2 : Word, decodeWords 0b0110100000010000#16 w2 = .movxb .r8 .r0) ∧
    (∀ w2 : Word, decodeWords 0b0100000001000011#16 w2 = .addb (.reg .r1) .r2) ∧
    (∀ w2 : Word, decodeWords 0b0010011010000100#16 w2 = .mulw (.short 4) .r4) ∧
    decodeWords 0b0001101000110001#16 0x0020#16 = .subcb (.medium 0x0020) .r1 ∧
    (∀ w2 : Word, decodeWords 0b0100111001100001#16 w2 = .cmpb (.reg .r0) .r3) ∧
    (∀ w2 : Word, decodeWords 0b0101000101100001#16 w2 = .andb (.reg .r0) .r11) ∧
    (∀ w2 : Word, decodeWords 0b0110111101000100#16 w2 = .slo .r2) ∧
    (∀ w2 : Word, decodeWords 0b0000101000100100#16 w2 = .lshb (.short 4) .r1) ∧
    (∀ w2 : Word, decodeWords 0b0011011000100011#16 w2 = .tbit (.short 3) .r1) ∧
    (∀ w2 : Word, decodeWords 0b0111000000100010#16 w2 = .lpr .r1 .psr) ∧
    (∀ w2 : Word, decodeWords 0b0111001001100000#16 w2 = .spr .intbase .r0) ∧
    (∀ w2 : Word, decodeWords 0b0101011101001000#16 w2 = .blo (.short 0b101101000)) ∧
    decodeWords 0b0001010101011110#16 0xFF68#16 = .blo (.medium 0b11111111101101000) ∧
    decodeWords 0b0011010111001110#16 0x0F6C#16 = .bal .ra 0x00F6C ∧
    (∀ w2 : Word, decodeWords 0b0101010101000111#16 w2 = .jlo .r3) ∧
    (∀ w2 : Word, decodeWords 0b0111010111000111#16 w2 = .jal .ra .r3) ∧
    (∀ w2 : Word, decodeWords 0b0111101111101010#16 w2 = .excp 0b0101) ∧
    (∀ w2 : Word, decodeWords 0b0111100111111110#16 w2 = .retx) ∧
    (∀ w2 : Word, decodeWords 0b1000100011101011#16 w2 = .loadb (.relShort .r5 9) .r7) ∧
    decodeWords 0b1011100100111111#16 0x0278#16 = .loadw (.abs 0x00278) .r9 ∧
    decodeWords 0b1101110011101001#16 0x0000#16 = .storb .r7 (.farRel .r4 0x20000) ∧
    (∀ w2 : Word, decodeWords 0b0111110111011110#16 w2 = .di) ∧
    (∀ w2 : Word, decodeWords 0b0000001000000000#16 w2 = .nop) ∧
    (∀ w2 : Word, decodeWords 0b0000010000000000#16 w2 = .und 0x0400)

/-- The processor-register codes in field `a` of LPR and SPR: PSR 0001, INTBASE 0011, ISP 1011; each of the three may be
loaded and stored, in every state. LPR and SPR complete (`46_procreg.md` R205). -/
def Obligations.ProcessorRegisterCodes : Prop :=
  (∀ r : Reg,
    encode (.lpr r .psr) = [0b01#2 ++ 1#1 ++ 0b1000#4 ++ 0b0001#4 ++ r.code ++ 0#1] ∧
      encode (.lpr r .intbase) = [0b01#2 ++ 1#1 ++ 0b1000#4 ++ 0b0011#4 ++ r.code ++ 0#1] ∧
      encode (.lpr r .isp) = [0b01#2 ++ 1#1 ++ 0b1000#4 ++ 0b1011#4 ++ r.code ++ 0#1] ∧
      encode (.spr .psr r) = [0b01#2 ++ 1#1 ++ 0b1001#4 ++ 0b0001#4 ++ r.code ++ 0#1] ∧
      encode (.spr .intbase r) = [0b01#2 ++ 1#1 ++ 0b1001#4 ++ 0b0011#4 ++ r.code ++ 0#1] ∧
      encode (.spr .isp r) = [0b01#2 ++ 1#1 ++ 0b1001#4 ++ 0b1011#4 ++ r.code ++ 0#1]) ∧
    ∀ (r : Reg) (p : ProcReg) (s : State), (∃ t, exec (.lpr r p) s = .next t) ∧ ∃ t, exec (.spr p r) s = .next t

/-- The condition codes: the truth of each condition, its code in Scond, Bcond and Jcond, the code 1110 as "always" (BR, JUMP)
(`47_jumps.md` R215). That the codes 1111, and 1110 in Scond, are no instruction rests on D7 (`30_encoding.md` R119, log 7), and
the pairing of each condition with its negation is the spec's inference (R215, `[derived]`). -/
def Obligations.ConditionCodes : Prop :=
  (∀ p : Psr,
    (condHolds .eq p = true ↔ p.z = true) ∧ (condHolds .ne p = true ↔ p.z = false) ∧
      (condHolds .cs p = true ↔ p.c = true) ∧ (condHolds .cc p = true ↔ p.c = false) ∧
      (condHolds .hi p = true ↔ p.l = true) ∧ (condHolds .ls p = true ↔ p.l = false) ∧
      (condHolds .gt p = true ↔ p.n = true) ∧ (condHolds .le p = true ↔ p.n = false) ∧
      (condHolds .fs p = true ↔ p.f = true) ∧ (condHolds .fc p = true ↔ p.f = false) ∧
      (condHolds .lo p = true ↔ p.z = false ∧ p.l = false) ∧ (condHolds .hs p = true ↔ p.z = true ∨ p.l = true) ∧
      (condHolds .lt p = true ↔ p.z = false ∧ p.n = false) ∧ (condHolds .ge p = true ↔ p.z = true ∨ p.n = true)) ∧
    (∀ (c : Cond) (r : Reg) (d : BitVec 9) (m : BitVec 17),
      encode (scond c r) = [0b01#2 ++ 1#1 ++ 0b0111#4 ++ condCode c ++ r.code ++ 0#1] ∧
        encode (bcond c (.short d)) = [0b01#2 ++ 0#1 ++ d.extractLsb' 5 4 ++ condCode c ++ d.extractLsb' 0 5] ∧
        encode (bcond c (.medium m)) =
          [0b00#2 ++ 0#1 ++ 0b1010#4 ++ condCode c ++ m.extractLsb' 16 1 ++ 0b1110#4, m.extractLsb' 0 16] ∧
        encode (jcond c r) = [0b01#2 ++ 0#1 ++ 0b1010#4 ++ condCode c ++ r.code ++ 1#1]) ∧
    (∀ (r : Reg) (d : BitVec 9) (m : BitVec 17),
      encode (.br (.short d)) = [0b01#2 ++ 0#1 ++ d.extractLsb' 5 4 ++ 0b1110#4 ++ d.extractLsb' 0 5] ∧
        encode (.br (.medium m)) =
          [0b00#2 ++ 0#1 ++ 0b1010#4 ++ 0b1110#4 ++ m.extractLsb' 16 1 ++ 0b1110#4, m.extractLsb' 0 16] ∧
        encode (.jump r) = [0b01#2 ++ 0#1 ++ 0b1010#4 ++ 0b1110#4 ++ r.code ++ 1#1]) ∧
    (∀ (disp : Disp) (r : Reg),
      decodeBranch 0b1111 disp = none ∧ decodeJump 0b1111 r = none ∧ decodeScond 0b1110 r = none ∧
        decodeScond 0b1111 r = none) ∧
    (∀ (disp : Disp) (target : Reg) (s : State),
      exec (.br disp) s = branch true disp s ∧ exec (.jump target) s = jump true target s) ∧
    ∀ c : Cond, ∃ c' : Cond, condCode c' = condCode c ^^^ 0b0001#4 ∧ ∀ p : Psr, condHolds c' p = !condHolds c p

/-- The values of the first operand of the basic formats, in the word and in the byte form (`30_encoding.md` R124; the upper
byte of a medium immediate is ignored by a byte operation: D24, log 24). -/
def Obligations.OperandValues : Prop :=
  ∀ (s : State) (r : Reg) (imm : BitVec 5) (w2 : Word),
    srcWord s (.reg r) = s.reg r ∧ srcByte s (.reg r) = (s.reg r).setWidth 8 ∧
      (srcWord s (.short imm)).toInt = imm.toInt ∧ (srcByte s (.short imm)).toInt = imm.toInt ∧
      srcWord s (.medium w2) = w2 ∧ srcByte s (.medium w2) = w2.setWidth 8

/-! ### The step -/

/-- Where nothing is requested, the core is not waiting and no trace trap is pending, where nothing was stored since the last
serializing operation, and where the bytes at the PC can be fetched and decode to an instruction, a step is that instruction
executed on the state with PSR.T copied to PSR.P (`60_exceptions.md` R305), the boundary's sample used up and the draw counter
advanced (logs 13, 34); a device's bytes at the PC are those of that sample (log 41). -/
def Obligations.StepRunsTheDecodedInstruction : Prop :=
  ∀ (s : State) (i : Instr) (rest : List Byte),
    Quiet s → s.waiting = false → s.psr.p = false → s.unserialized = [] →
      decode [s.tick.byteAt s.pc, s.tick.byteAt (s.pc + 1#18), s.tick.byteAt (s.pc + 2#18), s.tick.byteAt (s.pc + 3#18)] =
        .ok (i, rest) →
      WordAccessible s .read s.pc →
      (rest = [] → s.pc.toNat < 0x1FFFE ∧ WordAccessible s .read (s.pc + 2#18)) →
      step s =
        exec i { s with
          psr := { s.psr with p := s.psr.t }, inputs := s.inputs.tail, devices := s.sample.devices, draws := s.draws + 1 }

/-- A fetch sees the byte its address holds, or a byte that a store since the last serializing operation replaced there; with no
such store, the byte the address holds (`20_memory.md` R79; both outcomes admitted: D20, log 20). -/
def Obligations.FetchSeesOldOrNewBytes : Prop :=
  ∀ (s : State) (a : Addr),
    (fetchByte s a = s.byteAt a ∨ (a.toNat, fetchByte s a) ∈ s.unserialized) ∧
      ((∀ b : Byte, (a.toNat, b) ∉ s.unserialized) → fetchByte s a = s.byteAt a)

/-- The order of the checks of a step: reset, NMI, a maskable interrupt that E and I admit, ISE, waiting, the trace trap, the
instruction (`60_exceptions.md` R301, R305; requests sampled once a step: D13, log 13; draws: log 34). -/
def Obligations.StepOrder : Prop :=
  ∀ s : State,
    (s.sample.reset = true → step s = .next (warmReset s.tick)) ∧
      (s.sample.reset = false →
        (s.sample.nmi = true → step s = enter .nmi s.tick) ∧
          (s.sample.nmi = false →
            (s.sample.irq = true ∧ s.psr.e = true ∧ s.psr.i = true → step s = enter (.maskable s.sample.icuByte) s.tick) ∧
              (s.sample.irq = false ∨ s.psr.e = false ∨ s.psr.i = false →
                (s.sample.ise = true → step s = enter .ise s.tick) ∧
                  (s.sample.ise = false →
                    (s.waiting = true → step s = .next s.tick) ∧
                      (s.waiting = false →
                        (s.psr.p = true → step s = enter .trc s.tick) ∧
                          (s.psr.p = false →
                            step s = andThen (fetchInstr s.tick.copyTrace) fun i => exec i s.tick.copyTrace))))))

/-- With PSR.E or PSR.I 0 a maskable request makes no difference to the step, waiting or not (`60_exceptions.md` R290,
`49_misc.md` R268; that a masked request does not end the wait is D23, log 23). -/
def Obligations.MaskedRequestIgnored : Prop :=
  ∀ (s : State) (x : Sample) (rest : List Sample),
    s.inputs = x :: rest → s.psr.e = false ∨ s.psr.i = false →
      step s = step { s with inputs := { x with irq := false } :: rest }

/-! ### Exceptions -/

/-- A non-maskable request is always taken, and an ISE request where no request of higher priority is taken, whatever E and I
are: vectors 1 and 15, acknowledge cycles at 0FF00 and 0FC00 hex, I, P and T cleared after the PSR is saved
(`60_exceptions.md` R291, R292, R296, R297, R298; the places of the PSR bits in the saved image are PRESUMED: D6, log 6; logs
13, 14, 15, 30, 34, 37, 41). -/
def Obligations.UnmaskableInterruptsTaken : Prop :=
  (∀ s : State, Memory.wf s.mem = true → s.sample.reset = false → s.sample.nmi = true → ReadyForEntry 1 s →
    ∃ t, step s = .next t ∧
      ExceptionTaken 1 s.psr { s.psr with i := false, p := false, t := false } [.acknowledge 0x0FF00#18] s.tick t) ∧
    ∀ s : State, Memory.wf s.mem = true → s.sample.reset = false → s.sample.nmi = false →
      (s.sample.irq && s.psr.e && s.psr.i) = false → s.sample.ise = true → ReadyForEntry 15 s →
      ∃ t, step s = .next t ∧
        ExceptionTaken 15 s.psr { s.psr with i := false, p := false, t := false } [.acknowledge 0x0FC00#18] s.tick t

/-- A maskable request with E and I 1 is taken with the vector byte the ICU returns at 0FE00 hex (`60_exceptions.md` R290, R296,
R297, R298). The ICU promises a byte in 16..127; that any other byte is used in the same way is the model's choice among what
D16 says (log 16). The places of the PSR bits in the saved image are PRESUMED (D6, log 6); logs 13, 14, 15, 30, 34, 37, 41. -/
def Obligations.MaskableInterruptTaken : Prop :=
  ∀ s : State, Memory.wf s.mem = true → s.sample.reset = false → s.sample.nmi = false → s.sample.irq = true →
    s.psr.e = true → s.psr.i = true → ReadyForEntry s.sample.icuByte.toNat s →
    ∃ t, step s = .next t ∧
      ExceptionTaken s.sample.icuByte.toNat s.psr { s.psr with i := false, p := false, t := false }
        [.acknowledge 0x0FE00#18] s.tick t

/-- With PSR.P 1, no request accepted and the core not waiting, the trace trap is taken before the instruction: P is cleared
before the PSR is saved, P and T after, I is kept (`60_exceptions.md` R286, R297, R311). Its vector, `Config.trcVector`, is
PRESUMED (log 5), and so are the places of the PSR bits in the saved image (D6, log 6); logs 13, 14, 15, 34, 37, 41. -/
def Obligations.TraceTrapTaken : Prop :=
  ∀ s : State, Memory.wf s.mem = true → Quiet s → s.waiting = false → s.psr.p = true →
    ReadyForEntry Config.trcVector s →
    ∃ t, step s = .next t ∧
      ExceptionTaken Config.trcVector { s.psr with p := false } { s.psr with p := false, t := false } [] s.tick t

/-- EXCP completes by taking the trap its vector code names: 5 SVC, 6 DVZ, 7 FLG, 8 BPT, 10 UND, and UND for every other code;
the saved PC is the EXCP's own, the PSR is saved as it is, P and T are cleared after, I is kept, no acknowledge cycle is made
(`47_jumps.md` R230, `60_exceptions.md` R282, R283, R284, R285, R287, R296, R297; the places of the PSR bits in the saved image
are PRESUMED: D6, log 6; logs 14, 15, 37, 41). -/
def Obligations.ExcpTakesTheTrap : Prop :=
  ∀ (vector : BitVec 4) (s : State) (index : Nat),
    index = (if vector = 5#4 ∨ vector = 6#4 ∨ vector = 7#4 ∨ vector = 8#4 then vector.toNat else 10) →
      Memory.wf s.mem = true → ReadyForEntry index s →
      ∃ t, exec (.excp vector) s = .next t ∧
        ExceptionTaken index s.psr { s.psr with p := false, t := false } [] s t

/-- A word of Table A-2 completes by taking the UND trap, vector 10, with its own address saved (`60_exceptions.md` R285,
`30_encoding.md` R117; the places of the PSR bits in the saved image are PRESUMED: D6, log 6; logs 14, 15, 37, 41). -/
def Obligations.UndefinedWordTakesUnd : Prop :=
  ∀ (w : Word) (s : State), Memory.wf s.mem = true → ReadyForEntry 10 s →
    ∃ t, exec (.und w) s = .next t ∧ ExceptionTaken 10 s.psr { s.psr with p := false, t := false } [] s t

/-- RETX pops the PC word and then the PSR word: the nine fields take the values of their bits, ISP rises by 4, the core
serializes, a device sees the two reads, and nothing else changes (`47_jumps.md` R235; the places of the PSR bits are PRESUMED:
D6, log 6; bits 15..12 of the popped word are ignored: D27, log 27; log 41). Where ISP is above FFFC hex, see
`DataReferenceStops` (D15, log 15). -/
def Obligations.RetxPopsPcAndPsr : Prop :=
  ∀ s : State, s.isp.toNat ≤ 0xFFFC → WordAccessible s .read s.isp → WordAccessible s .read (s.isp + 2#18) →
    ∃ t, exec .retx s = .next t ∧ t.pc = 0#1 ++ s.wordAt s.isp ++ 0#1 ∧
      t.psr.c = (s.wordAt (s.isp + 2#18)).getLsbD 0 ∧ t.psr.t = (s.wordAt (s.isp + 2#18)).getLsbD 1 ∧
      t.psr.l = (s.wordAt (s.isp + 2#18)).getLsbD 2 ∧ t.psr.f = (s.wordAt (s.isp + 2#18)).getLsbD 5 ∧
      t.psr.z = (s.wordAt (s.isp + 2#18)).getLsbD 6 ∧ t.psr.n = (s.wordAt (s.isp + 2#18)).getLsbD 7 ∧
      t.psr.e = (s.wordAt (s.isp + 2#18)).getLsbD 9 ∧ t.psr.p = (s.wordAt (s.isp + 2#18)).getLsbD 10 ∧
      t.psr.i = (s.wordAt (s.isp + 2#18)).getLsbD 11 ∧ t.isp = s.isp + 4#18 ∧ t.unserialized = [] ∧
      (∀ a : Addr, t.byteAt a = s.byteAt a) ∧ SameRegs s t ∧ t.intbase = s.intbase ∧ t.cfg = s.cfg ∧
      t.waiting = s.waiting ∧ t.memMap = s.memMap ∧ t.inputs = s.inputs ∧ t.devices = s.devices ∧ t.draws = s.draws ∧
      t.bus = (BusAccess.readWord (s.isp + 2#18)).seen s.memMap ++ ((BusAccess.readWord s.isp).seen s.memMap ++ s.bus)

/-- From a legal state whose interrupt stack is in memory, the RETX that follows any exception entry completes and restores the
PC, the PSR as the entry saved it (with P cleared for a trace trap), ISP, and every general register (`60_exceptions.md` R296,
R297, R306, `47_jumps.md` R235; logs 14, 15, 16, 27, 37, 41). -/
def Obligations.EntryThenRetxRestores : Prop :=
  ∀ (k : Exc) (s t : State), s.Legal → WordInMemory s (s.isp - 4#18) → WordInMemory s (s.isp - 2#18) → enter k s = .next t →
    ∃ u, exec .retx t = .next u ∧ u.pc = s.pc ∧ u.isp = s.isp ∧ SameRegs s u ∧ u.intbase = s.intbase ∧
      (k = .trc → u.psr = { s.psr with p := false }) ∧ (k ≠ .trc → u.psr = s.psr) ∧
      ∀ a : Addr, u.byteAt a = t.byteAt a

/-- Tracing: an instruction executed with T 1 that neither loads the PSR nor takes a trap leaves T and P 1, so that, with
nothing requested and the core not waiting, the next step takes the trace trap with the address of the next instruction
(`60_exceptions.md` R311, R305; logs 13, 34). -/
def Obligations.TracedInstructionArmsTheTrap : Prop :=
  ∀ (s t : State) (i : Instr), nextEvent s = .instruction → s.psr.t = true →
    fetchInstr s.tick.copyTrace = .next i → loadsPsr i = false → entersTrap i = false → step s = .next t →
    t.psr.t = true ∧ t.psr.p = true ∧ (Quiet t → t.waiting = false → step t = enter .trc t.tick)

/-! ### Reset -/

/-- The state after the reset of power-up, where the spec gives a value: the PC, the PSR, CFG, not waiting
(`10_state.md` R53, `70_reset_and_hazards.md` R342; CFG's reserved bits are held as 0: log 40). -/
def Obligations.ResetState : Prop :=
  State.reset.pc = 0x00000#18 ∧ State.reset.psr.c = false ∧ State.reset.psr.t = false ∧ State.reset.psr.l = false ∧
    State.reset.psr.f = false ∧ State.reset.psr.z = false ∧ State.reset.psr.n = false ∧ State.reset.psr.e = true ∧
    State.reset.psr.p = false ∧ State.reset.psr.i = false ∧ State.reset.cfg = 0x0000#16 ∧ State.reset.waiting = false

/-- A reset request in any state, waiting or not, with any interrupt requested: R0 receives bits 16..1 of the PC, R1 an image of
the PSR, the PC and CFG become 0, the PSR is all 0 but E, the core is not waiting, ISP and INTBASE keep their constant bits 0, no
acknowledge cycle is made, and memory is left alone (`70_reset_and_hazards.md` R340, R341, `10_state.md` R24, R53; at a step
boundary only: D26, log 26; memory: log 38; the places of the PSR bits in R1 are PRESUMED: D6, log 6). -/
def Obligations.WarmReset : Prop :=
  ∀ s : State, s.sample.reset = true →
    ∃ t, step s = .next t ∧ t.reg .r0 = s.pc.extractLsb' 1 16 ∧ PsrImage s.psr (t.reg .r1) ∧ t.pc = 0x00000#18 ∧
      t.psr = { c := false, t := false, l := false, f := false, z := false, n := false, e := true, p := false, i := false } ∧
      t.cfg = 0x0000#16 ∧ t.waiting = false ∧ dedicatedLegal t.isp ∧ dedicatedLegal t.intbase ∧ t.bus = s.bus ∧
      t.memMap = s.memMap ∧ ∀ a : Addr, isDevice s.memMap a = false → t.byteAt a = s.byteAt a

/-! ### Moves -/

/-- MOVB and MOVW copy the source operand to the destination; nothing else changes (`40_moves.md` R140, R141). -/
def Obligations.MovCopiesTheSource : Prop :=
  ∀ (src : Src) (d : Reg) (s : State),
    (∃ t, exec (.movb src d) s = .next t ∧ ByteResult d (srcByte s src) s.psr (srcLen src) s t) ∧
      ∃ t, exec (.movw src d) s = .next t ∧ WordResult d (srcWord s src) s.psr (srcLen src) s t

/-- MOVXB gives the word of the same signed value as the source's low byte, MOVZB the word of the same unsigned value; nothing
else changes (`40_moves.md` R140, R142, R143). -/
def Obligations.ExtensionKeepsTheValue : Prop :=
  ∀ (src d : Reg) (s : State),
    (∃ t v, exec (.movxb src d) s = .next t ∧ v.toInt = ((s.reg src).setWidth 8).toInt ∧ WordResult d v s.psr 2 s t) ∧
      ∃ t v, exec (.movzb src d) s = .next t ∧ v.toNat = (s.reg src).toNat % 256 ∧ WordResult d v s.psr 2 s t

/-! ### Arithmetic -/

/-- ADDB, ADDW, ADDCB, ADDCW: the sum modulo 2^n of destination, source and carry-in (0 for ADDi, PSR.C for ADDCi); C is the
carry of the unsigned sum, F the signed overflow in the sign-bit form; no other flag changes (`41_arithmetic.md` R152, R153,
R158; carry and overflow by R157, the spec's reading: D29, log 29). -/
def Obligations.AddSetsCarryAndOverflow : Prop :=
  ∀ (src : Src) (d : Reg) (s : State) (cin : Bool),
    (∀ mk : Src → Reg → Instr, (mk = .addb ∧ cin = false) ∨ (mk = .addcb ∧ cin = s.psr.c) →
      ∃ t v c f, exec (mk src d) s = .next t ∧ ByteResult d v { s.psr with c := c, f := f } (srcLen src) s t ∧
        v.toNat = ((s.regByte d).toNat + (srcByte s src).toNat + cin.toNat) % 2 ^ 8 ∧
        (c = true ↔ 2 ^ 8 ≤ (s.regByte d).toNat + (srcByte s src).toNat + cin.toNat) ∧
        (f = true ↔ (s.regByte d).msb = (srcByte s src).msb ∧ v.msb ≠ (s.regByte d).msb)) ∧
      ∀ mk : Src → Reg → Instr, (mk = .addw ∧ cin = false) ∨ (mk = .addcw ∧ cin = s.psr.c) →
        ∃ t v c f, exec (mk src d) s = .next t ∧ WordResult d v { s.psr with c := c, f := f } (srcLen src) s t ∧
          v.toNat = ((s.reg d).toNat + (srcWord s src).toNat + cin.toNat) % 2 ^ 16 ∧
          (c = true ↔ 2 ^ 16 ≤ (s.reg d).toNat + (srcWord s src).toNat + cin.toNat) ∧
          (f = true ↔ (s.reg d).msb = (srcWord s src).msb ∧ v.msb ≠ (s.reg d).msb)

/-- SUBB, SUBW, SUBCB, SUBCW: the difference modulo 2^n of destination, source and borrow-in (0 for SUBi, PSR.C for SUBCi); C is
the borrow of the unsigned difference, F the signed overflow in the sign-bit form; no other flag changes (`41_arithmetic.md`
R155, R156, R158; borrow and overflow by R157, the spec's reading: D29, log 29). -/
def Obligations.SubSetsBorrowAndOverflow : Prop :=
  ∀ (src : Src) (d : Reg) (s : State) (cin : Bool),
    (∀ mk : Src → Reg → Instr, (mk = .subb ∧ cin = false) ∨ (mk = .subcb ∧ cin = s.psr.c) →
      ∃ t v c f, exec (mk src d) s = .next t ∧ ByteResult d v { s.psr with c := c, f := f } (srcLen src) s t ∧
        (v.toNat : Int) = ((s.regByte d).toNat - (srcByte s src).toNat - cin.toNat : Int) % 2 ^ 8 ∧
        (c = true ↔ (s.regByte d).toNat < (srcByte s src).toNat + cin.toNat) ∧
        (f = true ↔ (s.regByte d).msb ≠ (srcByte s src).msb ∧ v.msb ≠ (s.regByte d).msb)) ∧
      ∀ mk : Src → Reg → Instr, (mk = .subw ∧ cin = false) ∨ (mk = .subcw ∧ cin = s.psr.c) →
        ∃ t v c f, exec (mk src d) s = .next t ∧ WordResult d v { s.psr with c := c, f := f } (srcLen src) s t ∧
          (v.toNat : Int) = ((s.reg d).toNat - (srcWord s src).toNat - cin.toNat : Int) % 2 ^ 16 ∧
          (c = true ↔ (s.reg d).toNat < (srcWord s src).toNat + cin.toNat) ∧
          (f = true ↔ (s.reg d).msb ≠ (srcWord s src).msb ∧ v.msb ≠ (s.reg d).msb)

/-- ADDUB, ADDUW, MULB, MULW: the sum modulo 2^n, and the low n bits of the signed product, which are those of the unsigned
product; no flag changes (`41_arithmetic.md` R150, R151, R154, R158). -/
def Obligations.AdduAndMulLeaveFlags : Prop :=
  ∀ (src : Src) (d : Reg) (s : State),
    (∃ t v, exec (.addub src d) s = .next t ∧ ByteResult d v s.psr (srcLen src) s t ∧
      v.toNat = ((s.regByte d).toNat + (srcByte s src).toNat) % 2 ^ 8) ∧
      (∃ t v, exec (.adduw src d) s = .next t ∧ WordResult d v s.psr (srcLen src) s t ∧
        v.toNat = ((s.reg d).toNat + (srcWord s src).toNat) % 2 ^ 16) ∧
      (∃ t v, exec (.mulb src d) s = .next t ∧ ByteResult d v s.psr (srcLen src) s t ∧
        (v.toNat : Int) = (s.regByte d).toInt * (srcByte s src).toInt % 2 ^ 8 ∧
        v.toNat = (s.regByte d).toNat * (srcByte s src).toNat % 2 ^ 8) ∧
      ∃ t v, exec (.mulw src d) s = .next t ∧ WordResult d v s.psr (srcLen src) s t ∧
        (v.toNat : Int) = (s.reg d).toInt * (srcWord s src).toInt % 2 ^ 16 ∧
        v.toNat = (s.reg d).toNat * (srcWord s src).toNat % 2 ^ 16

/-- The flags of the arithmetic group: ADDi, ADDCi, SUBi and SUBCi write C and F and nothing else, ADDUi and MULi write no flag;
so none changes Z, N or L (`41_arithmetic.md` R158). -/
def Obligations.ArithmeticFlags : Prop :=
  ∀ (src : Src) (d : Reg) (s : State),
    (∀ mk ∈ ([.addb, .addw, .addcb, .addcw, .subb, .subw, .subcb, .subcw] : List (Src → Reg → Instr)),
      ∃ t c f, exec (mk src d) s = .next t ∧ t.psr = { s.psr with c := c, f := f }) ∧
      ∀ mk ∈ ([.addub, .adduw, .mulb, .mulw] : List (Src → Reg → Instr)),
        ∃ t, exec (mk src d) s = .next t ∧ t.psr = s.psr

/-- Two-word arithmetic: `ADDW R2, R0` then `ADDCW R3, R1` adds the 32-bit number R3:R2 to R1:R0, with C the carry and F the
signed overflow of the whole; `SUBW R2, R0` then `SUBCW R3, R1` subtracts it, with C the borrow (`41_arithmetic.md` R159, from
R157: D29, log 29). -/
def Obligations.TwoWordArithmetic : Prop :=
  ∀ s : State,
    (∃ t u, exec (.addw (.reg .r2) .r0) s = .next t ∧ exec (.addcw (.reg .r3) .r1) t = .next u ∧
      (u.reg .r1 ++ u.reg .r0).toNat = ((s.reg .r1 ++ s.reg .r0).toNat + (s.reg .r3 ++ s.reg .r2).toNat) % 2 ^ 32 ∧
      (u.psr.c = true ↔ 2 ^ 32 ≤ (s.reg .r1 ++ s.reg .r0).toNat + (s.reg .r3 ++ s.reg .r2).toNat) ∧
      (u.psr.f = true ↔
        (s.reg .r1 ++ s.reg .r0).toInt + (s.reg .r3 ++ s.reg .r2).toInt < -2 ^ 31 ∨
          2 ^ 31 ≤ (s.reg .r1 ++ s.reg .r0).toInt + (s.reg .r3 ++ s.reg .r2).toInt)) ∧
      ∃ t u, exec (.subw (.reg .r2) .r0) s = .next t ∧ exec (.subcw (.reg .r3) .r1) t = .next u ∧
        ((u.reg .r1 ++ u.reg .r0).toNat : Int) =
          ((s.reg .r1 ++ s.reg .r0).toNat - (s.reg .r3 ++ s.reg .r2).toNat : Int) % 2 ^ 32 ∧
        (u.psr.c = true ↔ (s.reg .r1 ++ s.reg .r0).toNat < (s.reg .r3 ++ s.reg .r2).toNat) ∧
        (u.psr.f = true ↔
          (s.reg .r1 ++ s.reg .r0).toInt - (s.reg .r3 ++ s.reg .r2).toInt < -2 ^ 31 ∨
            2 ^ 31 ≤ (s.reg .r1 ++ s.reg .r0).toInt - (s.reg .r3 ++ s.reg .r2).toInt)

/-! ### Comparison and conditions -/

/-- CMPB and CMPW: Z, N and L compare the first operand with the second, equal, greater as signed, greater as unsigned; nothing
else changes (`42_compare.md` R170). -/
def Obligations.CompareSetsZnl : Prop :=
  ∀ (src1 : Src) (src2 : Reg) (s : State),
    (∃ t z n l, exec (.cmpb src1 src2) s = .next t ∧
      NoRegResult { s.psr with z := z, n := n, l := l } (nextPc s.pc (srcLen src1)) s t ∧
      (z = true ↔ srcByte s src1 = s.regByte src2) ∧ (n = true ↔ (s.regByte src2).toInt < (srcByte s src1).toInt) ∧
      (l = true ↔ (s.regByte src2).toNat < (srcByte s src1).toNat)) ∧
      ∃ t z n l, exec (.cmpw src1 src2) s = .next t ∧
        NoRegResult { s.psr with z := z, n := n, l := l } (nextPc s.pc (srcLen src1)) s t ∧
        (z = true ↔ srcWord s src1 = s.reg src2) ∧ (n = true ↔ (s.reg src2).toInt < (srcWord s src1).toInt) ∧
        (l = true ↔ (s.reg src2).toNat < (srcWord s src1).toNat)

/-- After CMPW the condition names describe the first operand relative to the second, and after CMPB the same of the low bytes
(`42_compare.md` R171, which the spec derives). -/
def Obligations.ConditionsAfterCompare : Prop :=
  ∀ (src1 : Src) (src2 : Reg) (s : State),
    (∃ t, exec (.cmpw src1 src2) s = .next t ∧
      (condHolds .eq t.psr = true ↔ srcWord s src1 = s.reg src2) ∧
      (condHolds .ne t.psr = true ↔ srcWord s src1 ≠ s.reg src2) ∧
      (condHolds .hi t.psr = true ↔ (s.reg src2).toNat < (srcWord s src1).toNat) ∧
      (condHolds .ls t.psr = true ↔ (srcWord s src1).toNat ≤ (s.reg src2).toNat) ∧
      (condHolds .lo t.psr = true ↔ (srcWord s src1).toNat < (s.reg src2).toNat) ∧
      (condHolds .hs t.psr = true ↔ (s.reg src2).toNat ≤ (srcWord s src1).toNat) ∧
      (condHolds .gt t.psr = true ↔ (s.reg src2).toInt < (srcWord s src1).toInt) ∧
      (condHolds .le t.psr = true ↔ (srcWord s src1).toInt ≤ (s.reg src2).toInt) ∧
      (condHolds .lt t.psr = true ↔ (srcWord s src1).toInt < (s.reg src2).toInt) ∧
      (condHolds .ge t.psr = true ↔ (s.reg src2).toInt ≤ (srcWord s src1).toInt)) ∧
      ∃ t, exec (.cmpb src1 src2) s = .next t ∧
        (condHolds .eq t.psr = true ↔ srcByte s src1 = s.regByte src2) ∧
        (condHolds .ne t.psr = true ↔ srcByte s src1 ≠ s.regByte src2) ∧
        (condHolds .hi t.psr = true ↔ (s.regByte src2).toNat < (srcByte s src1).toNat) ∧
        (condHolds .ls t.psr = true ↔ (srcByte s src1).toNat ≤ (s.regByte src2).toNat) ∧
        (condHolds .lo t.psr = true ↔ (srcByte s src1).toNat < (s.regByte src2).toNat) ∧
        (condHolds .hs t.psr = true ↔ (s.regByte src2).toNat ≤ (srcByte s src1).toNat) ∧
        (condHolds .gt t.psr = true ↔ (s.regByte src2).toInt < (srcByte s src1).toInt) ∧
        (condHolds .le t.psr = true ↔ (srcByte s src1).toInt ≤ (s.regByte src2).toInt) ∧
        (condHolds .lt t.psr = true ↔ (srcByte s src1).toInt < (s.regByte src2).toInt) ∧
        (condHolds .ge t.psr = true ↔ (s.regByte src2).toInt ≤ (srcByte s src1).toInt)

/-! ### Logical and boolean -/

/-- ANDB, ANDW, ORB, ORW, XORB, XORW act bit by bit on the destination and the source; nothing else changes (`43_logical.md`
R175, R176, R177, R179). -/
def Obligations.LogicalBitByBit : Prop :=
  ∀ (src : Src) (d : Reg) (s : State),
    (∃ t, exec (.andb src d) s = .next t ∧ ByteResult d (s.regByte d &&& srcByte s src) s.psr (srcLen src) s t) ∧
      (∃ t, exec (.andw src d) s = .next t ∧ WordResult d (s.reg d &&& srcWord s src) s.psr (srcLen src) s t) ∧
      (∃ t, exec (.orb src d) s = .next t ∧ ByteResult d (s.regByte d ||| srcByte s src) s.psr (srcLen src) s t) ∧
      (∃ t, exec (.orw src d) s = .next t ∧ WordResult d (s.reg d ||| srcWord s src) s.psr (srcLen src) s t) ∧
      (∃ t, exec (.xorb src d) s = .next t ∧ ByteResult d (s.regByte d ^^^ srcByte s src) s.psr (srcLen src) s t) ∧
      ∃ t, exec (.xorw src d) s = .next t ∧ WordResult d (s.reg d ^^^ srcWord s src) s.psr (srcLen src) s t

/-- SEQ, SNE, SCS, SCC, SHI, SLS, SGT, SLE, SFS, SFC, SLO, SHS, SLT, SGE: all 16 bits of the destination become 1 or 0 by the
condition; nothing else changes (`43_logical.md` R178). -/
def Obligations.ScondSavesTheCondition : Prop :=
  ∀ (c : Cond) (d : Reg) (s : State),
    ∃ t, exec (scond c d) s = .next t ∧
      WordResult d (if condHolds c s.psr then 0x0001#16 else 0x0000#16) s.psr 2 s t

/-! ### Shifts and the bit test -/

/-- ASHUB, ASHUW, LSHB, LSHW with a count k in -(n-1)..n-1: for k from 0 up the value times 2^k modulo 2^n; for a negative k, by
ASHUi the floor of the signed value over 2^-k, by LSHi the floor of the unsigned one; nothing else changes (`44_shifts.md` R190,
R191, R192). -/
def Obligations.ShiftInRange : Prop :=
  ∀ (count : Src) (d : Reg) (s : State) (k : Int), k = (srcByte s count).toInt →
    (-7 ≤ k → k ≤ 7 →
      (∃ t v, exec (.ashub count d) s = .next t ∧ ByteResult d v s.psr (srcLen count) s t ∧
        (0 ≤ k → v.toNat = (s.regByte d).toNat * 2 ^ k.toNat % 2 ^ 8) ∧
        (k < 0 → v.toInt = (s.regByte d).toInt / 2 ^ (-k).toNat)) ∧
        ∃ t v, exec (.lshb count d) s = .next t ∧ ByteResult d v s.psr (srcLen count) s t ∧
          (0 ≤ k → v.toNat = (s.regByte d).toNat * 2 ^ k.toNat % 2 ^ 8) ∧
          (k < 0 → v.toNat = (s.regByte d).toNat / 2 ^ (-k).toNat)) ∧
      (-15 ≤ k → k ≤ 15 →
        (∃ t v, exec (.ashuw count d) s = .next t ∧ WordResult d v s.psr (srcLen count) s t ∧
          (0 ≤ k → v.toNat = (s.reg d).toNat * 2 ^ k.toNat % 2 ^ 16) ∧
          (k < 0 → v.toInt = (s.reg d).toInt / 2 ^ (-k).toNat)) ∧
          ∃ t v, exec (.lshw count d) s = .next t ∧ WordResult d v s.psr (srcLen count) s t ∧
            (0 ≤ k → v.toNat = (s.reg d).toNat * 2 ^ k.toNat % 2 ^ 16) ∧
            (k < 0 → v.toNat = (s.reg d).toNat / 2 ^ (-k).toNat))

/-- A shift with a count out of range completes: the destination's n bits take some value, nothing is said of which, and
nothing else changes (`44_shifts.md` R193; a free value: D11, log 11). -/
def Obligations.ShiftOutOfRangeCompletes : Prop :=
  ∀ (count : Src) (d : Reg) (s : State) (k : Int), k = (srcByte s count).toInt →
    (k < -7 ∨ 7 < k →
      (∃ t v, exec (.ashub count d) s = .next t ∧ ByteResult d v s.psr (srcLen count) s t) ∧
        ∃ t v, exec (.lshb count d) s = .next t ∧ ByteResult d v s.psr (srcLen count) s t) ∧
      (k < -15 ∨ 15 < k →
        (∃ t v, exec (.ashuw count d) s = .next t ∧ WordResult d v s.psr (srcLen count) s t) ∧
          ∃ t v, exec (.lshw count d) s = .next t ∧ WordResult d v s.psr (srcLen count) s t)

/-- TBIT copies the bit at the offset, all 16 bits of which count, to PSR.F; with an offset above 15 it completes and F takes
some value, nothing is said of which; nothing else changes (`45_bits.md` R200, R201; a free value: D11, log 11). -/
def Obligations.TbitCopiesTheBit : Prop :=
  ∀ (offset : Src) (src : Reg) (s : State),
    ∃ t f, exec (.tbit offset src) s = .next t ∧
      NoRegResult { s.psr with f := f } (nextPc s.pc (srcLen offset)) s t ∧
      ((srcWord s offset).toNat ≤ 15 → f = (s.reg src).getLsbD (srcWord s offset).toNat)

/-! ### Processor registers -/

/-- LPR: to the PSR, the nine fields take the values of their bits (bits 15..12 are ignored: D27, log 27; the places of the
fields are PRESUMED: D6, log 6); to INTBASE or ISP, bits 15..1 are written and bits 17, 16 and 0 cleared; the core serializes
and nothing else changes (`46_procreg.md` R206, R209, R210). -/
def Obligations.LprLoads : Prop :=
  ∀ (src : Reg) (s : State),
    (∃ t, exec (.lpr src .psr) s = .next t ∧
      t.psr.c = (s.reg src).getLsbD 0 ∧ t.psr.t = (s.reg src).getLsbD 1 ∧ t.psr.l = (s.reg src).getLsbD 2 ∧
      t.psr.f = (s.reg src).getLsbD 5 ∧ t.psr.z = (s.reg src).getLsbD 6 ∧ t.psr.n = (s.reg src).getLsbD 7 ∧
      t.psr.e = (s.reg src).getLsbD 9 ∧ t.psr.p = (s.reg src).getLsbD 10 ∧ t.psr.i = (s.reg src).getLsbD 11 ∧
      t.pc = nextPc s.pc 2 ∧ SameRegs s t ∧ (∀ a : Addr, t.byteAt a = s.byteAt a) ∧ t.unserialized = [] ∧
      SameControl s t) ∧
      (∃ t, exec (.lpr src .intbase) s = .next t ∧ t.intbase.toNat = (s.reg src).toNat / 2 * 2 ∧ t.psr = s.psr ∧
        t.pc = nextPc s.pc 2 ∧ SameRegs s t ∧ (∀ a : Addr, t.byteAt a = s.byteAt a) ∧ t.unserialized = [] ∧
        SameControl { s with intbase := t.intbase } t) ∧
      ∃ t, exec (.lpr src .isp) s = .next t ∧ t.isp.toNat = (s.reg src).toNat / 2 * 2 ∧ t.psr = s.psr ∧
        t.pc = nextPc s.pc 2 ∧ SameRegs s t ∧ (∀ a : Addr, t.byteAt a = s.byteAt a) ∧ t.unserialized = [] ∧
        SameControl { s with isp := t.isp } t

/-- SPR: an image of the PSR, whose bits 15..12 nothing is said of (D12, log 12) and whose fields' places are PRESUMED (D6, log
6), or bits 15..0 of INTBASE or ISP; nothing else changes (`46_procreg.md` R208, R209). -/
def Obligations.SprStores : Prop :=
  ∀ (d : Reg) (s : State),
    (∃ t v, exec (.spr .psr d) s = .next t ∧ PsrImage s.psr v ∧ WordResult d v s.psr 2 s t) ∧
      (∃ t v, exec (.spr .intbase d) s = .next t ∧ v.toNat = s.intbase.toNat % 2 ^ 16 ∧ WordResult d v s.psr 2 s t) ∧
      ∃ t v, exec (.spr .isp d) s = .next t ∧ v.toNat = s.isp.toNat % 2 ^ 16 ∧ WordResult d v s.psr 2 s t

/-! ### Branches and jumps -/

/-- BEQ, BNE, BCS, BCC, BHI, BLS, BGT, BLE, BFS, BFC, BLO, BHS, BLT, BGE go to the target where the condition holds and to the
next instruction where not, and BR always goes to the target; JEQ, JNE, JCS, JCC, JHI, JLS, JGT, JLE, JFS, JFC, JLO, JHS, JLT,
JGE the same with the code pointer in the register; nothing but the PC changes (`47_jumps.md` R216, R217, R219, R231). An odd
medium displacement is executed too (D17, log 17). -/
def Obligations.BranchesAndJumps : Prop :=
  ∀ (c : Cond) (disp : Disp) (target : Reg) (s : State),
    (∃ t, exec (bcond c disp) s = .next t ∧
      NoRegResult s.psr (if condHolds c s.psr then branchTarget s.pc (dispValue disp) else nextPc s.pc (dispLen disp)) s t) ∧
      (∃ t, exec (.br disp) s = .next t ∧ NoRegResult s.psr (branchTarget s.pc (dispValue disp)) s t) ∧
      ∃ t, exec (jcond c target) s = .next t ∧
        NoRegResult s.psr (if condHolds c s.psr then 0#1 ++ s.reg target ++ 0#1 else nextPc s.pc 2) s t

/-- The PC's arithmetic in numbers: from a legal PC, the next instruction and the target of an even displacement are taken
modulo 2^17; the odd medium displacement has its lowest bit cleared (`47_jumps.md` R216, `10_state.md` R25, R27; D4, D17,
logs 4, 17). -/
def Obligations.PcArithmetic : Prop :=
  ∀ pc : Addr, pcLegal pc →
    (nextPc pc 2).toNat = (pc.toNat + 2) % 2 ^ 17 ∧ (nextPc pc 4).toNat = (pc.toNat + 4) % 2 ^ 17 ∧
      (∀ d : BitVec 9, d.getLsbD 0 = false →
        ((branchTarget pc (dispValue (.short d))).toNat : Int) = (pc.toNat + d.toInt) % 2 ^ 17) ∧
      (∀ d : BitVec 17,
        ((branchTarget pc (dispValue (.medium d))).toNat : Int) = (pc.toNat + (d.toInt / 2 * 2)) % 2 ^ 17)

/-- BAL and JAL put bits 16..1 of the next instruction's address in the link register; BAL goes to the PC plus its displacement,
JAL to the code pointer its target register held before the link was written; nothing else changes (`47_jumps.md` R218, R232,
R234; link and target the same register: D18, log 18; an odd displacement of BAL is executed with bit 0 cleared: D17, log 17). -/
def Obligations.LinkAndGo : Prop :=
  ∀ (link target : Reg) (disp : BitVec 17) (s : State),
    (∃ t, exec (.bal link disp) s = .next t ∧ t.reg link = (nextPc s.pc 4).extractLsb' 1 16 ∧ SameRegsBut link s t ∧
      t.pc = branchTarget s.pc (disp.signExtend 18) ∧ t.psr = s.psr ∧ SameMemory s t ∧ SameControl s t) ∧
      ∃ t, exec (.jal link target) s = .next t ∧ t.reg link = (nextPc s.pc 2).extractLsb' 1 16 ∧ SameRegsBut link s t ∧
        t.pc = 0#1 ++ s.reg target ++ 0#1 ∧ t.psr = s.psr ∧ SameMemory s t ∧ SameControl s t

/-- JUMP: its encoding is Jcond's with condition 1110, bits 16..1 of the PC become the register's contents, bits 17 and 0 become
0, no flag and nothing else changes, and it never traps; `JUMP RA` is the word 0x55DD (`47_jumps.md` R233). -/
def Obligations.JumpLoadsThePc : Prop :=
  (∀ (target : Reg) (s : State),
    encode (.jump target) = [0b01#2 ++ 0#1 ++ 0b1010#4 ++ 0b1110#4 ++ target.code ++ 1#1] ∧
      ∃ t, exec (.jump target) s = .next t ∧ NoRegResult s.psr (0#1 ++ s.reg target ++ 0#1) s t) ∧
    encode (.jump .ra) = [0x55DD#16] ∧ encode (.jump .r3) = [0x55C7#16]

/-- A jump through the link register, with whatever happened in between, goes to the instruction after the BAL or JAL
(`47_jumps.md` R233, R234). -/
def Obligations.JumpThroughTheLinkReturns : Prop :=
  ∀ (link target : Reg) (disp : BitVec 17) (s t u : State), u.reg link = t.reg link →
    (exec (.bal link disp) s = .next t → ∃ v, exec (.jump link) u = .next v ∧ v.pc = nextPc s.pc 4) ∧
      (exec (.jal link target) s = .next t → ∃ v, exec (.jump link) u = .next v ∧ v.pc = nextPc s.pc 2)

/-! ### Loads and stores -/

/-- The effective addresses in numbers, modulo 2^18: base plus displacement, the pair's 18 bits plus displacement, the absolute
address (`48_loadstore.md` R246 to R249, `20_memory.md` R74; widening and wrap: D2, D3, logs 2, 3). -/
def Obligations.EffectiveAddresses : Prop :=
  ∀ (s : State) (base : Reg) (d : BitVec 5) (disp : Addr),
    (effAddr s (.relShort base d)).toNat = (s.reg base).toNat + d.toNat ∧
      (effAddr s (.relMedium base disp)).toNat = ((s.reg base).toNat + disp.toNat) % 2 ^ 18 ∧
      (effAddr s (.farRel base disp)).toNat =
        ((s.reg (nextReg base)).toNat % 4 * 2 ^ 16 + (s.reg base).toNat + disp.toNat) % 2 ^ 18 ∧
      effAddr s (.abs disp) = disp ∧
      ∀ r : Reg, r ≠ .sp → (nextReg r).code = r.code + 1#4

/-- LOADB and LOADW where the bytes can be read, of memory or of a device: the byte, or the little-endian word at any address,
goes to the destination, the base register included; a device sees the access, and nothing else changes (`48_loadstore.md` R246,
R250, `20_memory.md` R62, R65, R75; which bytes can be read: D8, D9, D10, logs 8, 10, 36; devices: log 41). -/
def Obligations.LoadsReadMemory : Prop :=
  ∀ (m : Mode) (d : Reg) (s : State),
    (ByteAccessible s .read (effAddr s m) →
      ∃ t, exec (.loadb m d) s = .next t ∧ ByteResult d (s.byteAt (effAddr s m)) s.psr (modeLen m)
        { s with bus := (BusAccess.readByte (effAddr s m)).seen s.memMap ++ s.bus } t) ∧
      (WordAccessible s .read (effAddr s m) →
        ∃ t v, exec (.loadw m d) s = .next t ∧
          WordResult d v s.psr (modeLen m) { s with bus := (BusAccess.readWord (effAddr s m)).seen s.memMap ++ s.bus } t ∧
          v.toNat = (s.byteAt (effAddr s m)).toNat + 256 * (s.byteAt (effAddr s m + 1#18)).toNat)

/-- STORB and STORW where the bytes can be written: the low byte, or the word low byte first, is stored at the effective
address; every other byte, and a device's, reads as before; a device sees the access; only the PC changes besides
(`48_loadstore.md` R251, `20_memory.md` R63, R65, R75; which bytes can be written: D8, D9, D10, logs 8, 10, 36; devices: log
41). -/
def Obligations.StoresWriteMemory : Prop :=
  ∀ (r : Reg) (m : Mode) (s : State), Memory.wf s.mem = true →
    (ByteAccessible s .write (effAddr s m) →
      ∃ t, exec (.storb r m) s = .next t ∧
        (isDevice s.memMap (effAddr s m) = false → t.byteAt (effAddr s m) = (s.reg r).setWidth 8) ∧
        (∀ a : Addr, a ≠ effAddr s m ∨ isDevice s.memMap a = true → t.byteAt a = s.byteAt a) ∧
        t.bus = (BusAccess.writeByte (effAddr s m) ((s.reg r).setWidth 8)).seen s.memMap ++ s.bus ∧
        SameRegs s t ∧ t.psr = s.psr ∧ t.pc = nextPc s.pc (modeLen m) ∧ SameControl { s with bus := t.bus } t) ∧
      (WordAccessible s .write (effAddr s m) →
        ∃ t, exec (.storw r m) s = .next t ∧
          (isDevice s.memMap (effAddr s m) = false → (t.byteAt (effAddr s m)).toNat = (s.reg r).toNat % 256) ∧
          (isDevice s.memMap (effAddr s m + 1#18) = false →
            (t.byteAt (effAddr s m + 1#18)).toNat = (s.reg r).toNat / 256) ∧
          (∀ a : Addr, a ≠ effAddr s m ∧ a ≠ effAddr s m + 1#18 ∨ isDevice s.memMap a = true → t.byteAt a = s.byteAt a) ∧
          t.bus = (BusAccess.writeWord (effAddr s m) (s.reg r)).seen s.memMap ++ s.bus ∧
          SameRegs s t ∧ t.psr = s.psr ∧ t.pc = nextPc s.pc (modeLen m) ∧ SameControl { s with bus := t.bus } t)

/-- What a device sees and what its location holds: the access is recorded where one of its bytes is a device's, and only there;
a load of a location that the sample lists gives the listed byte (`00_scope.md` R12, `20_memory.md` R75, D9, D25; logs 25, 41). -/
def Obligations.DevicesSeeAccesses : Prop :=
  (∀ (map : List Region) (a : Addr) (b : Byte) (v : Word),
    (isDevice map a = true →
      (BusAccess.readByte a).seen map = [.readByte a] ∧ (BusAccess.writeByte a b).seen map = [.writeByte a b]) ∧
      (isDevice map a = true ∨ isDevice map (a + 1#18) = true →
        (BusAccess.readWord a).seen map = [.readWord a] ∧ (BusAccess.writeWord a v).seen map = [.writeWord a v]) ∧
      (isDevice map a = false → (BusAccess.readByte a).seen map = [] ∧ (BusAccess.writeByte a b).seen map = []) ∧
      (isDevice map a = false ∧ isDevice map (a + 1#18) = false →
        (BusAccess.readWord a).seen map = [] ∧ (BusAccess.writeWord a v).seen map = [])) ∧
    ∀ (m : Mode) (d : Reg) (s : State) (b : Byte), isDevice s.memMap (effAddr s m) = true → isReserved (effAddr s m) = false →
      s.devices.find? (fun c => c.1 = (effAddr s m).toNat) = some ((effAddr s m).toNat, b) →
      ∃ t, exec (.loadb m d) s = .next t ∧ t.regByte d = b

/-- A load after a store sees it, in memory: a word stored is loaded back from the same address, whatever the address forms,
and a byte load there or at the next address gives the low or the high byte (`48_loadstore.md` R253, `20_memory.md` R62, R75;
a device holds what the platform gives it: `00_scope.md` R12, log 41). -/
def Obligations.LoadAfterStore : Prop :=
  ∀ (r d : Reg) (m m' : Mode) (s t : State), Memory.wf s.mem = true → exec (.storw r m) s = .next t →
    WordInMemory s (effAddr s m) →
    (effAddr t m' = effAddr s m → ∃ u, exec (.loadw m' d) t = .next u ∧ u.reg d = s.reg r) ∧
      (effAddr t m' = effAddr s m → ∃ u, exec (.loadb m' d) t = .next u ∧ u.regByte d = (s.reg r).setWidth 8) ∧
      (effAddr t m' = effAddr s m + 1#18 →
        ∃ u, exec (.loadb m' d) t = .next u ∧ (u.regByte d).toNat = (s.reg r).toNat / 256)

/-- Where a data reference stops: a word at 3FFFF hex is refused; a byte or word that touches the reserved range is refused; the
interrupt stack below 4 or above FFFC hex is refused (`48_loadstore.md` R252, `20_memory.md` R62, R63, R72, `60_exceptions.md`
R296, `47_jumps.md` R235; the spec's decisions D8, D10, D15, logs 8, 10, 15). -/
def Obligations.DataReferenceStops : Prop :=
  ∀ (m : Mode) (r : Reg) (s : State),
    (effAddr s m = 0x3FFFF#18 →
      exec (.loadw m r) s = .refused .beyondAddressSpace ∧ exec (.storw r m) s = .refused .beyondAddressSpace) ∧
      (0x0FC00 ≤ (effAddr s m).toNat → (effAddr s m).toNat ≤ 0x0FFFF →
        exec (.loadb m r) s = .refused .reservedRange ∧ exec (.storb r m) s = .refused .reservedRange) ∧
      (0x0FBFF ≤ (effAddr s m).toNat → (effAddr s m).toNat ≤ 0x0FFFF →
        (∃ x, exec (.loadw m r) s = .refused x) ∧ ∃ x, exec (.storw r m) s = .refused x) ∧
      (s.isp.toNat < 4 → ∀ k : Exc, enter k s = .refused .interruptStackBounds) ∧
      (0xFFFC < s.isp.toNat → exec .retx s = .refused .interruptStackBounds)

/-! ### Miscellaneous -/

/-- DI clears E, EI sets it, NOP changes nothing, WAIT puts the core in the waiting state; each advances the PC by 2 and changes
nothing else (`49_misc.md` R265 to R268). -/
def Obligations.MiscInstructions : Prop :=
  ∀ s : State,
    (∃ t, exec .di s = .next t ∧ NoRegResult { s.psr with e := false } (nextPc s.pc 2) s t) ∧
      (∃ t, exec .ei s = .next t ∧ NoRegResult { s.psr with e := true } (nextPc s.pc 2) s t) ∧
      (∃ t, exec .nop s = .next t ∧ NoRegResult s.psr (nextPc s.pc 2) s t) ∧
      ∃ t, exec .wait s = .next t ∧ t.waiting = true ∧ NoRegResult s.psr (nextPc s.pc 2) { s with waiting := true } t

/-! ### Whole-machine rules -/

/-- The state after reset is legal (`10_state.md` R25, R28, R29, R53; the values of ISP, INTBASE and memory are the model's:
logs 21, 22, 31; CFG: log 40). -/
def Obligations.ResetIsLegal : Prop := State.reset.Legal

/-- Every step keeps a state legal: bits 17 and 0 of the PC and bits 17, 16 and 0 of ISP and INTBASE stay 0, memory keeps its
canonical form, CFG stays 0 (`10_state.md` R25, R28, R29, R42; `20_memory.md` R66, R67; what wraps or is refused: D4, D15,
logs 4, 15; memory's form and CFG: logs 31, 40). -/
def Obligations.StepKeepsLegal : Prop :=
  ∀ s t : State, s.Legal → step s = .next t → t.Legal

/-- No instruction writes a general register but the one it names as destination or link (`10_state.md` R22, R24). -/
def Obligations.OnlyTheDestinationIsWritten : Prop :=
  ∀ (i : Instr) (s t : State), exec i s = .next t → ∀ r : Reg, destReg i ≠ some r → t.reg r = s.reg r

/-- Who writes each PSR field: Z, N and L comparison, C addition and subtraction, F these and TBIT, E DI and EI, T and P what
takes a trap, and all nine LPR to the PSR and RETX (`10_state.md` R30 to R39; the copy of T to P and interrupts are the step's, not
an instruction's: R305). -/
def Obligations.WhoWritesThePsr : Prop :=
  ∀ (i : Instr) (s t : State), exec i s = .next t → loadsPsr i = false →
    (t.psr.z ≠ s.psr.z ∨ t.psr.n ≠ s.psr.n ∨ t.psr.l ≠ s.psr.l → compares i = true) ∧
      (t.psr.c ≠ s.psr.c → addsOrSubtracts i = true) ∧
      (t.psr.f ≠ s.psr.f → addsOrSubtracts i = true ∨ ∃ o r, i = .tbit o r) ∧
      (t.psr.e ≠ s.psr.e → i = .di ∨ i = .ei) ∧ t.psr.i = s.psr.i ∧
      (t.psr.t ≠ s.psr.t ∨ t.psr.p ≠ s.psr.p → entersTrap i = true)

/-- Memory is written by STORi and by the push of an exception entry only (`10_state.md` R44, `20_memory.md` R60). -/
def Obligations.WhoWritesMemory : Prop :=
  ∀ (i : Instr) (s t : State), exec i s = .next t → storesData i = false → entersTrap i = false →
    ∀ a : Addr, t.byteAt a = s.byteAt a

/-- INTBASE is written by LPR only, ISP by LPR, RETX and the entry of a trap, CFG by nothing; WAIT starts the wait; an instruction
makes no acknowledge cycle, and only one that references data or takes a trap is seen by a device (`10_state.md` R28, R29, R52,
`46_procreg.md` R207, `60_exceptions.md` R296, `20_memory.md` R77); the memory map, the inputs, what devices hold and the draw
counter, which are the model's, are not an instruction's to change (logs 9, 13, 34, 41). -/
def Obligations.WhoWritesTheSpecialRegisters : Prop :=
  ∀ (i : Instr) (s t : State), exec i s = .next t →
    (t.intbase ≠ s.intbase → ∃ r, i = .lpr r .intbase) ∧
      (t.isp ≠ s.isp → (∃ r, i = .lpr r .isp) ∨ i = .retx ∨ entersTrap i = true) ∧ t.cfg = s.cfg ∧
      (t.waiting ≠ s.waiting → i = .wait ∨ entersTrap i = true) ∧
      (∃ seen, t.bus = seen ++ s.bus ∧ (∀ a : Addr, BusAccess.acknowledge a ∉ seen) ∧
        (seen ≠ [] → referencesData i = true ∨ entersTrap i = true)) ∧
      t.memMap = s.memMap ∧ t.inputs = s.inputs ∧ t.devices = s.devices ∧ t.draws = s.draws

/-- The serializing instructions leave nothing for a fetch to miss; no other instruction serializes; and every byte a store
changes is remembered with the byte it replaced (`70_reset_and_hazards.md` R347, `20_memory.md` R78, R79; D20, log 20). -/
def Obligations.SerializingInstructions : Prop :=
  ∀ (i : Instr) (s t : State), Memory.wf s.mem = true → exec i s = .next t →
    (serializes i = true → t.unserialized = []) ∧
      (serializes i = false → ∃ stored, t.unserialized = stored ++ s.unserialized ∧
        ∀ a : Addr, t.byteAt a ≠ s.byteAt a → (a.toNat, s.byteAt a) ∈ stored)

/-- There are no other synchronous exceptions: every instruction that neither references data nor takes a trap completes in
every state, UNSPECIFIED apart (`60_exceptions.md` R288, R320; UNSPECIFIED: D7, log 7; an odd medium Bcond, BR or BAL completes
by the model's choice: D17, log 17; a shift or bit test out of range completes: D11, log 11). -/
def Obligations.NoOtherSynchronousException : Prop :=
  ∀ (i : Instr) (s : State), referencesData i = false → entersTrap i = false → (∀ words, i ≠ .unspecified words) →
    ∃ t, exec i s = .next t
end

