-- ==== Sys2Proof/Laws/State.lean ====
section
/-! SUPPORT. One lemma for each field of the state under each update, and the register laws. -/

namespace Sys2Proof.Machine

/-! ### `State.setReg` -/

@[simp] theorem State.setReg_regs (s : State) (r : Reg) (v : Word) : (s.setReg r v).regs = s.regs.set r v := rfl
@[simp] theorem State.setReg_pc (s : State) (r : Reg) (v : Word) : (s.setReg r v).pc = s.pc := rfl
@[simp] theorem State.setReg_isp (s : State) (r : Reg) (v : Word) : (s.setReg r v).isp = s.isp := rfl
@[simp] theorem State.setReg_intbase (s : State) (r : Reg) (v : Word) : (s.setReg r v).intbase = s.intbase := rfl
@[simp] theorem State.setReg_psr (s : State) (r : Reg) (v : Word) : (s.setReg r v).psr = s.psr := rfl
@[simp] theorem State.setReg_cfg (s : State) (r : Reg) (v : Word) : (s.setReg r v).cfg = s.cfg := rfl
@[simp] theorem State.setReg_mem (s : State) (r : Reg) (v : Word) : (s.setReg r v).mem = s.mem := rfl
@[simp] theorem State.setReg_waiting (s : State) (r : Reg) (v : Word) : (s.setReg r v).waiting = s.waiting := rfl
@[simp] theorem State.setReg_unserialized (s : State) (r : Reg) (v : Word) : (s.setReg r v).unserialized = s.unserialized := rfl
@[simp] theorem State.setReg_memMap (s : State) (r : Reg) (v : Word) : (s.setReg r v).memMap = s.memMap := rfl
@[simp] theorem State.setReg_inputs (s : State) (r : Reg) (v : Word) : (s.setReg r v).inputs = s.inputs := rfl
@[simp] theorem State.setReg_devices (s : State) (r : Reg) (v : Word) : (s.setReg r v).devices = s.devices := rfl
@[simp] theorem State.setReg_bus (s : State) (r : Reg) (v : Word) : (s.setReg r v).bus = s.bus := rfl
@[simp] theorem State.setReg_draws (s : State) (r : Reg) (v : Word) : (s.setReg r v).draws = s.draws := rfl

/-! ### `State.setRegByte` -/

@[simp] theorem State.setRegByte_regs (s : State) (r : Reg) (v : Byte) : (s.setRegByte r v).regs = s.regs.set r ((s.reg r).extractLsb' 8 8 ++ v) := rfl
@[simp] theorem State.setRegByte_pc (s : State) (r : Reg) (v : Byte) : (s.setRegByte r v).pc = s.pc := rfl
@[simp] theorem State.setRegByte_isp (s : State) (r : Reg) (v : Byte) : (s.setRegByte r v).isp = s.isp := rfl
@[simp] theorem State.setRegByte_intbase (s : State) (r : Reg) (v : Byte) : (s.setRegByte r v).intbase = s.intbase := rfl
@[simp] theorem State.setRegByte_psr (s : State) (r : Reg) (v : Byte) : (s.setRegByte r v).psr = s.psr := rfl
@[simp] theorem State.setRegByte_cfg (s : State) (r : Reg) (v : Byte) : (s.setRegByte r v).cfg = s.cfg := rfl
@[simp] theorem State.setRegByte_mem (s : State) (r : Reg) (v : Byte) : (s.setRegByte r v).mem = s.mem := rfl
@[simp] theorem State.setRegByte_waiting (s : State) (r : Reg) (v : Byte) : (s.setRegByte r v).waiting = s.waiting := rfl
@[simp] theorem State.setRegByte_unserialized (s : State) (r : Reg) (v : Byte) : (s.setRegByte r v).unserialized = s.unserialized := rfl
@[simp] theorem State.setRegByte_memMap (s : State) (r : Reg) (v : Byte) : (s.setRegByte r v).memMap = s.memMap := rfl
@[simp] theorem State.setRegByte_inputs (s : State) (r : Reg) (v : Byte) : (s.setRegByte r v).inputs = s.inputs := rfl
@[simp] theorem State.setRegByte_devices (s : State) (r : Reg) (v : Byte) : (s.setRegByte r v).devices = s.devices := rfl
@[simp] theorem State.setRegByte_bus (s : State) (r : Reg) (v : Byte) : (s.setRegByte r v).bus = s.bus := rfl
@[simp] theorem State.setRegByte_draws (s : State) (r : Reg) (v : Byte) : (s.setRegByte r v).draws = s.draws := rfl

/-! ### `State.setPsr` -/

@[simp] theorem State.setPsr_regs (s : State) (p : Psr) : (s.setPsr p).regs = s.regs := rfl
@[simp] theorem State.setPsr_pc (s : State) (p : Psr) : (s.setPsr p).pc = s.pc := rfl
@[simp] theorem State.setPsr_isp (s : State) (p : Psr) : (s.setPsr p).isp = s.isp := rfl
@[simp] theorem State.setPsr_intbase (s : State) (p : Psr) : (s.setPsr p).intbase = s.intbase := rfl
@[simp] theorem State.setPsr_psr (s : State) (p : Psr) : (s.setPsr p).psr = p := rfl
@[simp] theorem State.setPsr_cfg (s : State) (p : Psr) : (s.setPsr p).cfg = s.cfg := rfl
@[simp] theorem State.setPsr_mem (s : State) (p : Psr) : (s.setPsr p).mem = s.mem := rfl
@[simp] theorem State.setPsr_waiting (s : State) (p : Psr) : (s.setPsr p).waiting = s.waiting := rfl
@[simp] theorem State.setPsr_unserialized (s : State) (p : Psr) : (s.setPsr p).unserialized = s.unserialized := rfl
@[simp] theorem State.setPsr_memMap (s : State) (p : Psr) : (s.setPsr p).memMap = s.memMap := rfl
@[simp] theorem State.setPsr_inputs (s : State) (p : Psr) : (s.setPsr p).inputs = s.inputs := rfl
@[simp] theorem State.setPsr_devices (s : State) (p : Psr) : (s.setPsr p).devices = s.devices := rfl
@[simp] theorem State.setPsr_bus (s : State) (p : Psr) : (s.setPsr p).bus = s.bus := rfl
@[simp] theorem State.setPsr_draws (s : State) (p : Psr) : (s.setPsr p).draws = s.draws := rfl

/-! ### `State.setPc` -/

@[simp] theorem State.setPc_regs (s : State) (a : Addr) : (s.setPc a).regs = s.regs := rfl
@[simp] theorem State.setPc_pc (s : State) (a : Addr) : (s.setPc a).pc = a := rfl
@[simp] theorem State.setPc_isp (s : State) (a : Addr) : (s.setPc a).isp = s.isp := rfl
@[simp] theorem State.setPc_intbase (s : State) (a : Addr) : (s.setPc a).intbase = s.intbase := rfl
@[simp] theorem State.setPc_psr (s : State) (a : Addr) : (s.setPc a).psr = s.psr := rfl
@[simp] theorem State.setPc_cfg (s : State) (a : Addr) : (s.setPc a).cfg = s.cfg := rfl
@[simp] theorem State.setPc_mem (s : State) (a : Addr) : (s.setPc a).mem = s.mem := rfl
@[simp] theorem State.setPc_waiting (s : State) (a : Addr) : (s.setPc a).waiting = s.waiting := rfl
@[simp] theorem State.setPc_unserialized (s : State) (a : Addr) : (s.setPc a).unserialized = s.unserialized := rfl
@[simp] theorem State.setPc_memMap (s : State) (a : Addr) : (s.setPc a).memMap = s.memMap := rfl
@[simp] theorem State.setPc_inputs (s : State) (a : Addr) : (s.setPc a).inputs = s.inputs := rfl
@[simp] theorem State.setPc_devices (s : State) (a : Addr) : (s.setPc a).devices = s.devices := rfl
@[simp] theorem State.setPc_bus (s : State) (a : Addr) : (s.setPc a).bus = s.bus := rfl
@[simp] theorem State.setPc_draws (s : State) (a : Addr) : (s.setPc a).draws = s.draws := rfl

/-! ### `State.advance` -/

@[simp] theorem State.advance_regs (s : State) (n : Nat) : (s.advance n).regs = s.regs := rfl
@[simp] theorem State.advance_pc (s : State) (n : Nat) : (s.advance n).pc = nextPc s.pc n := rfl
@[simp] theorem State.advance_isp (s : State) (n : Nat) : (s.advance n).isp = s.isp := rfl
@[simp] theorem State.advance_intbase (s : State) (n : Nat) : (s.advance n).intbase = s.intbase := rfl
@[simp] theorem State.advance_psr (s : State) (n : Nat) : (s.advance n).psr = s.psr := rfl
@[simp] theorem State.advance_cfg (s : State) (n : Nat) : (s.advance n).cfg = s.cfg := rfl
@[simp] theorem State.advance_mem (s : State) (n : Nat) : (s.advance n).mem = s.mem := rfl
@[simp] theorem State.advance_waiting (s : State) (n : Nat) : (s.advance n).waiting = s.waiting := rfl
@[simp] theorem State.advance_unserialized (s : State) (n : Nat) : (s.advance n).unserialized = s.unserialized := rfl
@[simp] theorem State.advance_memMap (s : State) (n : Nat) : (s.advance n).memMap = s.memMap := rfl
@[simp] theorem State.advance_inputs (s : State) (n : Nat) : (s.advance n).inputs = s.inputs := rfl
@[simp] theorem State.advance_devices (s : State) (n : Nat) : (s.advance n).devices = s.devices := rfl
@[simp] theorem State.advance_bus (s : State) (n : Nat) : (s.advance n).bus = s.bus := rfl
@[simp] theorem State.advance_draws (s : State) (n : Nat) : (s.advance n).draws = s.draws := rfl

/-! ### `State.serialize` -/

@[simp] theorem State.serialize_regs (s : State) : (s.serialize).regs = s.regs := rfl
@[simp] theorem State.serialize_pc (s : State) : (s.serialize).pc = s.pc := rfl
@[simp] theorem State.serialize_isp (s : State) : (s.serialize).isp = s.isp := rfl
@[simp] theorem State.serialize_intbase (s : State) : (s.serialize).intbase = s.intbase := rfl
@[simp] theorem State.serialize_psr (s : State) : (s.serialize).psr = s.psr := rfl
@[simp] theorem State.serialize_cfg (s : State) : (s.serialize).cfg = s.cfg := rfl
@[simp] theorem State.serialize_mem (s : State) : (s.serialize).mem = s.mem := rfl
@[simp] theorem State.serialize_waiting (s : State) : (s.serialize).waiting = s.waiting := rfl
@[simp] theorem State.serialize_unserialized (s : State) : (s.serialize).unserialized = [] := rfl
@[simp] theorem State.serialize_memMap (s : State) : (s.serialize).memMap = s.memMap := rfl
@[simp] theorem State.serialize_inputs (s : State) : (s.serialize).inputs = s.inputs := rfl
@[simp] theorem State.serialize_devices (s : State) : (s.serialize).devices = s.devices := rfl
@[simp] theorem State.serialize_bus (s : State) : (s.serialize).bus = s.bus := rfl
@[simp] theorem State.serialize_draws (s : State) : (s.serialize).draws = s.draws := rfl

/-! ### `State.putByte` -/

@[simp] theorem State.putByte_regs (s : State) (a : Addr) (v : Byte) : (s.putByte a v).regs = s.regs := rfl
@[simp] theorem State.putByte_pc (s : State) (a : Addr) (v : Byte) : (s.putByte a v).pc = s.pc := rfl
@[simp] theorem State.putByte_isp (s : State) (a : Addr) (v : Byte) : (s.putByte a v).isp = s.isp := rfl
@[simp] theorem State.putByte_intbase (s : State) (a : Addr) (v : Byte) : (s.putByte a v).intbase = s.intbase := rfl
@[simp] theorem State.putByte_psr (s : State) (a : Addr) (v : Byte) : (s.putByte a v).psr = s.psr := rfl
@[simp] theorem State.putByte_cfg (s : State) (a : Addr) (v : Byte) : (s.putByte a v).cfg = s.cfg := rfl
@[simp] theorem State.putByte_mem (s : State) (a : Addr) (v : Byte) : (s.putByte a v).mem = if isDevice s.memMap a then s.mem else writeCell s.mem a.toNat v := rfl
@[simp] theorem State.putByte_waiting (s : State) (a : Addr) (v : Byte) : (s.putByte a v).waiting = s.waiting := rfl
@[simp] theorem State.putByte_unserialized (s : State) (a : Addr) (v : Byte) : (s.putByte a v).unserialized =
    if isDevice s.memMap a then s.unserialized else (a.toNat, s.byteAt a) :: s.unserialized := rfl
@[simp] theorem State.putByte_memMap (s : State) (a : Addr) (v : Byte) : (s.putByte a v).memMap = s.memMap := rfl
@[simp] theorem State.putByte_inputs (s : State) (a : Addr) (v : Byte) : (s.putByte a v).inputs = s.inputs := rfl
@[simp] theorem State.putByte_devices (s : State) (a : Addr) (v : Byte) : (s.putByte a v).devices = s.devices := rfl
@[simp] theorem State.putByte_bus (s : State) (a : Addr) (v : Byte) : (s.putByte a v).bus = s.bus := rfl
@[simp] theorem State.putByte_draws (s : State) (a : Addr) (v : Byte) : (s.putByte a v).draws = s.draws := rfl

/-! ### `State.putWord` -/

@[simp] theorem State.putWord_regs (s : State) (a : Addr) (v : Word) : (s.putWord a v).regs = s.regs := rfl
@[simp] theorem State.putWord_pc (s : State) (a : Addr) (v : Word) : (s.putWord a v).pc = s.pc := rfl
@[simp] theorem State.putWord_isp (s : State) (a : Addr) (v : Word) : (s.putWord a v).isp = s.isp := rfl
@[simp] theorem State.putWord_intbase (s : State) (a : Addr) (v : Word) : (s.putWord a v).intbase = s.intbase := rfl
@[simp] theorem State.putWord_psr (s : State) (a : Addr) (v : Word) : (s.putWord a v).psr = s.psr := rfl
@[simp] theorem State.putWord_cfg (s : State) (a : Addr) (v : Word) : (s.putWord a v).cfg = s.cfg := rfl
@[simp] theorem State.putWord_waiting (s : State) (a : Addr) (v : Word) : (s.putWord a v).waiting = s.waiting := rfl
@[simp] theorem State.putWord_memMap (s : State) (a : Addr) (v : Word) : (s.putWord a v).memMap = s.memMap := rfl
@[simp] theorem State.putWord_inputs (s : State) (a : Addr) (v : Word) : (s.putWord a v).inputs = s.inputs := rfl
@[simp] theorem State.putWord_devices (s : State) (a : Addr) (v : Word) : (s.putWord a v).devices = s.devices := rfl
@[simp] theorem State.putWord_bus (s : State) (a : Addr) (v : Word) : (s.putWord a v).bus = s.bus := rfl
@[simp] theorem State.putWord_draws (s : State) (a : Addr) (v : Word) : (s.putWord a v).draws = s.draws := rfl

/-! ### `State.access` and `State.acknowledge` -/

@[simp] theorem State.access_regs (s : State) (e : BusAccess) : (s.access e).regs = s.regs := rfl
@[simp] theorem State.access_pc (s : State) (e : BusAccess) : (s.access e).pc = s.pc := rfl
@[simp] theorem State.access_isp (s : State) (e : BusAccess) : (s.access e).isp = s.isp := rfl
@[simp] theorem State.access_intbase (s : State) (e : BusAccess) : (s.access e).intbase = s.intbase := rfl
@[simp] theorem State.access_psr (s : State) (e : BusAccess) : (s.access e).psr = s.psr := rfl
@[simp] theorem State.access_cfg (s : State) (e : BusAccess) : (s.access e).cfg = s.cfg := rfl
@[simp] theorem State.access_mem (s : State) (e : BusAccess) : (s.access e).mem = s.mem := rfl
@[simp] theorem State.access_waiting (s : State) (e : BusAccess) : (s.access e).waiting = s.waiting := rfl
@[simp] theorem State.access_unserialized (s : State) (e : BusAccess) : (s.access e).unserialized = s.unserialized := rfl
@[simp] theorem State.access_memMap (s : State) (e : BusAccess) : (s.access e).memMap = s.memMap := rfl
@[simp] theorem State.access_inputs (s : State) (e : BusAccess) : (s.access e).inputs = s.inputs := rfl
@[simp] theorem State.access_devices (s : State) (e : BusAccess) : (s.access e).devices = s.devices := rfl
@[simp] theorem State.access_draws (s : State) (e : BusAccess) : (s.access e).draws = s.draws := rfl
@[simp] theorem State.access_bus (s : State) (e : BusAccess) : (s.access e).bus = e.seen s.memMap ++ s.bus := rfl
@[simp] theorem State.acknowledge_regs (s : State) (k : Exc) : (s.acknowledge k).regs = s.regs := rfl
@[simp] theorem State.acknowledge_pc (s : State) (k : Exc) : (s.acknowledge k).pc = s.pc := rfl
@[simp] theorem State.acknowledge_isp (s : State) (k : Exc) : (s.acknowledge k).isp = s.isp := rfl
@[simp] theorem State.acknowledge_intbase (s : State) (k : Exc) : (s.acknowledge k).intbase = s.intbase := rfl
@[simp] theorem State.acknowledge_psr (s : State) (k : Exc) : (s.acknowledge k).psr = s.psr := rfl
@[simp] theorem State.acknowledge_cfg (s : State) (k : Exc) : (s.acknowledge k).cfg = s.cfg := rfl
@[simp] theorem State.acknowledge_mem (s : State) (k : Exc) : (s.acknowledge k).mem = s.mem := rfl
@[simp] theorem State.acknowledge_waiting (s : State) (k : Exc) : (s.acknowledge k).waiting = s.waiting := rfl
@[simp] theorem State.acknowledge_unserialized (s : State) (k : Exc) : (s.acknowledge k).unserialized = s.unserialized := rfl
@[simp] theorem State.acknowledge_memMap (s : State) (k : Exc) : (s.acknowledge k).memMap = s.memMap := rfl
@[simp] theorem State.acknowledge_inputs (s : State) (k : Exc) : (s.acknowledge k).inputs = s.inputs := rfl
@[simp] theorem State.acknowledge_devices (s : State) (k : Exc) : (s.acknowledge k).devices = s.devices := rfl
@[simp] theorem State.acknowledge_draws (s : State) (k : Exc) : (s.acknowledge k).draws = s.draws := rfl
@[simp] theorem State.acknowledge_bus (s : State) (k : Exc) :
    (s.acknowledge k).bus = ((excAckAddr k).map BusAccess.acknowledge).toList ++ s.bus := rfl

/-! ### `State.tick` -/

@[simp] theorem State.tick_regs (s : State) : (s.tick).regs = s.regs := rfl
@[simp] theorem State.tick_pc (s : State) : (s.tick).pc = s.pc := rfl
@[simp] theorem State.tick_isp (s : State) : (s.tick).isp = s.isp := rfl
@[simp] theorem State.tick_intbase (s : State) : (s.tick).intbase = s.intbase := rfl
@[simp] theorem State.tick_psr (s : State) : (s.tick).psr = s.psr := rfl
@[simp] theorem State.tick_cfg (s : State) : (s.tick).cfg = s.cfg := rfl
@[simp] theorem State.tick_mem (s : State) : (s.tick).mem = s.mem := rfl
@[simp] theorem State.tick_waiting (s : State) : (s.tick).waiting = s.waiting := rfl
@[simp] theorem State.tick_unserialized (s : State) : (s.tick).unserialized = s.unserialized := rfl
@[simp] theorem State.tick_memMap (s : State) : (s.tick).memMap = s.memMap := rfl
@[simp] theorem State.tick_inputs (s : State) : (s.tick).inputs = s.inputs.tail := rfl
@[simp] theorem State.tick_devices (s : State) : (s.tick).devices = s.sample.devices := rfl
@[simp] theorem State.tick_bus (s : State) : (s.tick).bus = s.bus := rfl
@[simp] theorem State.tick_draws (s : State) : (s.tick).draws = s.draws + 1 := rfl

/-! ### `State.copyTrace` -/

@[simp] theorem State.copyTrace_regs (s : State) : (s.copyTrace).regs = s.regs := rfl
@[simp] theorem State.copyTrace_pc (s : State) : (s.copyTrace).pc = s.pc := rfl
@[simp] theorem State.copyTrace_isp (s : State) : (s.copyTrace).isp = s.isp := rfl
@[simp] theorem State.copyTrace_intbase (s : State) : (s.copyTrace).intbase = s.intbase := rfl
@[simp] theorem State.copyTrace_psr (s : State) : (s.copyTrace).psr = { s.psr with p := s.psr.t } := rfl
@[simp] theorem State.copyTrace_cfg (s : State) : (s.copyTrace).cfg = s.cfg := rfl
@[simp] theorem State.copyTrace_mem (s : State) : (s.copyTrace).mem = s.mem := rfl
@[simp] theorem State.copyTrace_waiting (s : State) : (s.copyTrace).waiting = s.waiting := rfl
@[simp] theorem State.copyTrace_unserialized (s : State) : (s.copyTrace).unserialized = s.unserialized := rfl
@[simp] theorem State.copyTrace_memMap (s : State) : (s.copyTrace).memMap = s.memMap := rfl
@[simp] theorem State.copyTrace_inputs (s : State) : (s.copyTrace).inputs = s.inputs := rfl
@[simp] theorem State.copyTrace_devices (s : State) : (s.copyTrace).devices = s.devices := rfl
@[simp] theorem State.copyTrace_bus (s : State) : (s.copyTrace).bus = s.bus := rfl
@[simp] theorem State.copyTrace_draws (s : State) : (s.copyTrace).draws = s.draws := rfl

/-! ### General registers -/

/-- A register after a write: the written value, or the value it had. -/
theorem Regs.get_set (g : Regs) (d r : Reg) (v : Word) : (g.set d v).get r = if r = d then v else g.get r := by
  cases d <;> cases r <;> rfl

@[simp] theorem State.reg_setReg_same (s : State) (d : Reg) (v : Word) : (s.setReg d v).reg d = v := by
  simp [State.reg, Regs.get_set]

theorem State.reg_setReg_other (s : State) {d r : Reg} (v : Word) (h : r ≠ d) : (s.setReg d v).reg r = s.reg r := by
  simp [State.reg, Regs.get_set, h]

/-- The low byte of two bytes put together. -/
@[simp] theorem extractLow_append (h l : Byte) : (h ++ l : Word).extractLsb' 0 8 = l := by
  ext k hk
  have e : (h ++ l : BitVec (8 + 8)).getLsbD (0 + k) = _ := BitVec.getLsbD_append
  simp [BitVec.getElem_extractLsb', hk] at e ⊢
  exact e

/-- The high byte of two bytes put together. -/
@[simp] theorem extractHigh_append (h l : Byte) : (h ++ l : Word).extractLsb' 8 8 = h := by
  ext k hk
  have e : (h ++ l : BitVec (8 + 8)).getLsbD (8 + k) = _ := BitVec.getLsbD_append
  simp [BitVec.getElem_extractLsb', hk] at e ⊢
  exact e

/-- A word is its high byte before its low byte. -/
theorem append_extract (w : Word) : (w.extractLsb' 8 8 ++ w.extractLsb' 0 8 : Word) = w := by
  apply BitVec.eq_of_getLsbD_eq
  intro k hk
  have e : (w.extractLsb' 8 8 ++ w.extractLsb' 0 8 : BitVec (8 + 8)).getLsbD k = _ := BitVec.getLsbD_append
  refine e.trans ?_
  by_cases h : k < 8
  · simp [h]
  · simp [h, show k - 8 < 8 by omega, show 8 + (k - 8) = k by omega]

/-- The low byte of a register after a byte write. -/
@[simp] theorem State.reg_setRegByte_low (s : State) (d : Reg) (v : Byte) :
    ((s.setRegByte d v).reg d).extractLsb' 0 8 = v := by
  simp only [State.setRegByte, State.reg_setReg_same, extractLow_append]

/-- The high byte of a register after a byte write: unchanged (`10_state.md` R23). -/
@[simp] theorem State.reg_setRegByte_high (s : State) (d : Reg) (v : Byte) :
    ((s.setRegByte d v).reg d).extractLsb' 8 8 = (s.reg d).extractLsb' 8 8 := by
  simp only [State.setRegByte, State.reg_setReg_same, extractHigh_append]

theorem State.reg_setRegByte_other (s : State) {d r : Reg} (v : Byte) (h : r ≠ d) :
    (s.setRegByte d v).reg r = s.reg r := State.reg_setReg_other s _ h

@[simp] theorem State.reg_setPsr (s : State) (p : Psr) (r : Reg) : (s.setPsr p).reg r = s.reg r := rfl
@[simp] theorem State.reg_setPc (s : State) (a : Addr) (r : Reg) : (s.setPc a).reg r = s.reg r := rfl
@[simp] theorem State.reg_advance (s : State) (n : Nat) (r : Reg) : (s.advance n).reg r = s.reg r := rfl
@[simp] theorem State.reg_serialize (s : State) (r : Reg) : (s.serialize).reg r = s.reg r := rfl
@[simp] theorem State.reg_putByte (s : State) (a : Addr) (v : Byte) (r : Reg) : (s.putByte a v).reg r = s.reg r := rfl
@[simp] theorem State.reg_putWord (s : State) (a : Addr) (v : Word) (r : Reg) : (s.putWord a v).reg r = s.reg r := rfl
@[simp] theorem State.reg_access (s : State) (e : BusAccess) (r : Reg) : (s.access e).reg r = s.reg r := rfl
@[simp] theorem State.reg_acknowledge (s : State) (k : Exc) (r : Reg) : (s.acknowledge k).reg r = s.reg r := rfl
@[simp] theorem State.reg_tick (s : State) (r : Reg) : (s.tick).reg r = s.reg r := rfl
@[simp] theorem State.reg_copyTrace (s : State) (r : Reg) : (s.copyTrace).reg r = s.reg r := rfl

/-! ### Bytes of memory -/

@[simp] theorem State.byteAt_setReg (s : State) (r : Reg) (v : Word) (k : Addr) : (s.setReg r v).byteAt k = s.byteAt k := rfl
@[simp] theorem State.byteAt_setRegByte (s : State) (r : Reg) (v : Byte) (k : Addr) : (s.setRegByte r v).byteAt k = s.byteAt k := rfl
@[simp] theorem State.byteAt_setPsr (s : State) (p : Psr) (k : Addr) : (s.setPsr p).byteAt k = s.byteAt k := rfl
@[simp] theorem State.byteAt_setPc (s : State) (a : Addr) (k : Addr) : (s.setPc a).byteAt k = s.byteAt k := rfl
@[simp] theorem State.byteAt_advance (s : State) (n : Nat) (k : Addr) : (s.advance n).byteAt k = s.byteAt k := rfl
@[simp] theorem State.byteAt_serialize (s : State) (k : Addr) : (s.serialize).byteAt k = s.byteAt k := rfl
@[simp] theorem State.byteAt_access (s : State) (e : BusAccess) (k : Addr) : (s.access e).byteAt k = s.byteAt k := rfl
@[simp] theorem State.byteAt_acknowledge (s : State) (c : Exc) (k : Addr) : (s.acknowledge c).byteAt k = s.byteAt k := rfl
@[simp] theorem State.wordAt_setReg (s : State) (r : Reg) (v : Word) (k : Addr) : (s.setReg r v).wordAt k = s.wordAt k := rfl
@[simp] theorem State.wordAt_setPsr (s : State) (p : Psr) (k : Addr) : (s.setPsr p).wordAt k = s.wordAt k := rfl
@[simp] theorem State.wordAt_advance (s : State) (n : Nat) (k : Addr) : (s.advance n).wordAt k = s.wordAt k := rfl
@[simp] theorem State.wordAt_serialize (s : State) (k : Addr) : (s.serialize).wordAt k = s.wordAt k := rfl
@[simp] theorem State.wordAt_access (s : State) (e : BusAccess) (k : Addr) : (s.access e).wordAt k = s.wordAt k := rfl
@[simp] theorem State.wordAt_acknowledge (s : State) (c : Exc) (k : Addr) : (s.acknowledge c).wordAt k = s.wordAt k := rfl

/-- A byte of memory is the same after a tick; what a device holds comes with the sample. -/
theorem State.byteAt_tick (s : State) {k : Addr} (h : isDevice s.memMap k = false) : (s.tick).byteAt k = s.byteAt k := by
  simp [State.byteAt, h]

@[simp] theorem State.byteAt_copyTrace (s : State) (k : Addr) : (s.copyTrace).byteAt k = s.byteAt k := rfl

/-! ### What devices see -/

/-- A bus access adds itself to what devices have seen, or nothing. -/
@[simp] theorem BusAccess.mem_seen (e x : BusAccess) (map : List Region) :
    x ∈ e.seen map ↔ x = e ∧ e.isSeen map = true := by
  unfold BusAccess.seen
  split <;> simp [*]

end Sys2Proof.Machine
end

