-- ==== Sys2Proof/Laws/Memory.lean ====
section
/-! SUPPORT. The laws of memory: reading after a write, and the canonical form. -/

namespace Sys2Proof.Machine

/-! ### The canonical form -/

theorem cellsFrom_cons {low k : Nat} {b : Byte} {rest : List Host.Cell} :
    cellsFrom low ((k, b) :: rest) = true ↔
      low ≤ k ∧ k < 2 ^ 18 ∧ b ≠ Config.unlistedByte ∧ cellsFrom (k + 1) rest = true := by
  simp [cellsFrom, and_assoc]

/-- A smaller bound holds too. -/
theorem cellsFrom_mono {low low' : Nat} {m : List Host.Cell} (h : cellsFrom low m = true) (hl : low' ≤ low) :
    cellsFrom low' m = true := by
  cases m with
  | nil => rfl
  | cons c rest =>
    obtain ⟨k, b⟩ := c
    rw [cellsFrom_cons] at h ⊢
    exact ⟨hl.trans h.1, h.2⟩

/-- Below the bound nothing is listed. -/
theorem readCell_below {low a : Nat} {m : List Host.Cell} (h : cellsFrom low m = true) (ha : a < low) :
    readCell m a = Config.unlistedByte := by
  cases m with
  | nil => rfl
  | cons c rest =>
    obtain ⟨k, b⟩ := c
    rw [cellsFrom_cons] at h
    simp [readCell, ha.trans_le h.1]

/-- A write keeps the canonical form. -/
theorem cellsFrom_writeCell {low a : Nat} {m : List Host.Cell} (v : Byte) (h : cellsFrom low m = true) (hl : low ≤ a)
    (ha : a < 2 ^ 18) : cellsFrom low (writeCell m a v) = true := by
  induction m generalizing low with
  | nil =>
    simp only [writeCell]
    split
    · rfl
    · exact cellsFrom_cons.2 ⟨hl, ha, ‹_›, rfl⟩
  | cons c rest ih =>
    obtain ⟨k, b⟩ := c
    obtain ⟨h1, h2, h3, h4⟩ := cellsFrom_cons.1 h
    simp only [writeCell]
    split
    · split
      · exact h
      · exact cellsFrom_cons.2 ⟨hl, ha, ‹_›, cellsFrom_cons.2 ⟨by omega, h2, h3, h4⟩⟩
    · split
      · subst a
        split
        · exact cellsFrom_mono h4 (by omega)
        · exact cellsFrom_cons.2 ⟨h1, ha, ‹_›, h4⟩
      · exact cellsFrom_cons.2 ⟨h1, h2, h3, ih h4 (by omega)⟩

/-! ### Reading after a write -/

/-- A byte written is read back. -/
theorem readCell_writeCell_same {low : Nat} {m : List Host.Cell} (a : Nat) (v : Byte) (h : cellsFrom low m = true) :
    readCell (writeCell m a v) a = v := by
  induction m generalizing low with
  | nil =>
    simp only [writeCell]
    split
    · simp [readCell, *]
    · simp [readCell]
  | cons c rest ih =>
    obtain ⟨k, b⟩ := c
    obtain ⟨h1, h2, h3, h4⟩ := cellsFrom_cons.1 h
    simp only [writeCell]
    split
    · split
      · simp [readCell, *]
      · simp [readCell]
    · split
      · subst a
        split
        · simp [readCell_below h4, *]
        · simp [readCell]
      · simp [readCell, *, ih h4]

/-- A write leaves every other byte as it was. -/
theorem readCell_writeCell_other {low : Nat} {m : List Host.Cell} {a c : Nat} (v : Byte) (h : cellsFrom low m = true)
    (hc : c ≠ a) : readCell (writeCell m a v) c = readCell m c := by
  induction m generalizing low with
  | nil =>
    simp only [writeCell]
    split
    · rfl
    · simp [readCell, hc]
  | cons p rest ih =>
    obtain ⟨k, b⟩ := p
    obtain ⟨h1, h2, h3, h4⟩ := cellsFrom_cons.1 h
    simp only [writeCell]
    split
    · split
      · rfl
      · by_cases hca : c < a
        · simp [readCell, hca, show c < k by omega]
        · simp [readCell, hca, hc]
    · split
      · subst a
        split
        · by_cases hck : c < k
          · simp [readCell, hck, readCell_below h4 (show c < k + 1 by omega)]
          · simp [readCell, hck, hc]
        · simp [readCell, hc]
      · simp only [readCell]
        split
        · rfl
        · split
          · rfl
          · exact ih h4

/-! ### The same for the state's memory -/

/-- Storing a byte keeps the canonical form. -/
theorem State.wf_putByte (s : State) (a : Addr) (v : Byte) (h : Memory.wf s.mem = true) :
    Memory.wf (s.putByte a v).mem = true := by
  rw [State.putByte_mem]
  split
  · exact h
  · exact cellsFrom_writeCell v h (Nat.zero_le _) (by omega)

/-- Storing a word keeps the canonical form. -/
theorem State.wf_putWord (s : State) (a : Addr) (v : Word) (h : Memory.wf s.mem = true) :
    Memory.wf (s.putWord a v).mem = true :=
  State.wf_putByte _ _ _ (State.wf_putByte _ _ _ h)

/-- All that storing a byte does to a byte: the one at the address becomes the stored one, unless it is a device's
(`20_memory.md` R63, `00_scope.md` R12). -/
theorem State.byteAt_putByte (s : State) (a k : Addr) (v : Byte) (h : Memory.wf s.mem = true) :
    (s.putByte a v).byteAt k = if k = a ∧ isDevice s.memMap a = false then v else s.byteAt k := by
  simp only [State.byteAt, State.putByte_memMap, State.putByte_mem, State.putByte_devices, State.putByte_draws]
  by_cases hk : k = a
  · subst hk
    by_cases hd : isDevice s.memMap k = true
    · simp [hd]
    · simpa [hd] using readCell_writeCell_same k.toNat v h
  · have n : k.toNat ≠ a.toNat := fun e => hk (BitVec.eq_of_toNat_eq e)
    by_cases hd : isDevice s.memMap a = true
    · simp [hd]
    · simp [hd, hk, readCell_writeCell_other v h n]

theorem State.byteAt_putByte_other (s : State) {a k : Addr} (v : Byte) (h : Memory.wf s.mem = true) (hk : k ≠ a) :
    (s.putByte a v).byteAt k = s.byteAt k := by
  rw [State.byteAt_putByte s a k v h, if_neg fun e => hk e.1]

/-- A device's byte is not the core's to change (`00_scope.md` R12). -/
theorem State.byteAt_putByte_device (s : State) {a k : Addr} (v : Byte) (h : Memory.wf s.mem = true)
    (hk : isDevice s.memMap k = true) : (s.putByte a v).byteAt k = s.byteAt k := by
  rw [State.byteAt_putByte s a k v h, if_neg]
  rintro ⟨rfl, hd⟩
  simp [hd] at hk

theorem byteStored_putByte (s : State) (a : Addr) (v : Byte) (h : Memory.wf s.mem = true) :
    ByteStored a v s (s.putByte a v) := by
  rw [ByteStored, State.byteAt_putByte s a a v h]
  cases isDevice s.memMap a <;> simp

theorem succ_ne (a : Addr) : a + 1#18 ≠ a := by
  bv_omega

/-- A stored word lies at its address, low byte first (`20_memory.md` R63). -/
theorem wordStored_putWord (s : State) (a : Addr) (v : Word) (h : Memory.wf s.mem = true) :
    WordStored a v s (s.putWord a v) := by
  constructor
  · rw [ByteStored, State.putWord, State.byteAt_putByte_other _ _ (State.wf_putByte _ _ _ h) (succ_ne a).symm]
    exact byteStored_putByte s a _ h
  · have b := byteStored_putByte (s.putByte a (v.extractLsb' 0 8)) (a + 1#18) (v.extractLsb' 8 8) (State.wf_putByte _ _ _ h)
    rw [ByteStored, State.byteAt_putByte_other s _ h (succ_ne a)] at b
    exact b

/-- A word store leaves every other byte, and every device's, as it was. -/
theorem State.byteAt_putWord_other (s : State) {a k : Addr} (v : Word) (h : Memory.wf s.mem = true)
    (hk : k ≠ a ∧ k ≠ a + 1#18 ∨ isDevice s.memMap k = true) : (s.putWord a v).byteAt k = s.byteAt k := by
  rcases hk with ⟨h0, h1⟩ | hd
  · rw [State.putWord, State.byteAt_putByte_other _ _ (State.wf_putByte _ _ _ h) h1, State.byteAt_putByte_other _ _ h h0]
  · rw [State.putWord, State.byteAt_putByte_device _ _ (State.wf_putByte _ _ _ h) hd, State.byteAt_putByte_device _ _ h hd]

/-- A word stored in memory is the word that is there. -/
theorem WordStored.wordAt {a : Addr} {v : Word} {s t : State} (h : WordStored a v s t) (m : WordInMemory s a) :
    t.wordAt a = v := by
  obtain ⟨h0, h1⟩ := h
  rw [ByteStored, m.1, if_neg Bool.false_ne_true] at h0
  rw [ByteStored, m.2, if_neg Bool.false_ne_true] at h1
  rw [State.wordAt, h0, h1]
  exact append_extract v

/-! ### What the checked accesses can do -/

theorem andThen_next {α β : Type} {x : Res α} {k : α → Res β} {b : β} :
    andThen x k = .next b ↔ ∃ a, x = .next a ∧ k a = .next b := by
  cases x <;> simp [andThen]

@[simp] theorem andThen_next_eq {α β : Type} (a : α) (k : α → Res β) : andThen (.next a) k = k a := rfl

/-- An access that is allowed is not to the reserved range, nor to an absent address, nor a write to ROM (`20_memory.md` R72,
D9). -/
theorem checkAccess_next {s : State} {acc : Access} {a : Addr} (h : checkAccess s acc a = .next ()) :
    isReserved a = false ∧ regionKind s.memMap a.toNat ≠ .absent ∧ (regionKind s.memMap a.toNat = .rom → acc = .read) := by
  cases hr : isReserved a
  · cases hk : regionKind s.memMap a.toNat <;> cases acc <;> simp_all [checkAccess]
  · simp [checkAccess, hr] at h

/-- What can be written can be read. -/
theorem checkAccess_read_of_write {s : State} {a : Addr} (h : checkAccess s .write a = .next ()) :
    checkAccess s .read a = .next () := by
  obtain ⟨h1, h2, -⟩ := checkAccess_next h
  cases hk : regionKind s.memMap a.toNat <;> simp_all [checkAccess]

/-- A word access that is allowed: two addresses, both allowed. -/
theorem checkWord_next {s : State} {acc : Access} {a : Addr} :
    checkWord s acc a = .next () ↔
      a ≠ 0x3FFFF#18 ∧ checkAccess s acc a = .next () ∧ checkAccess s acc (a + 1#18) = .next () := by
  unfold checkWord
  split
  · simp [*]
  · simp only [andThen_next, ne_eq, *, not_false_eq_true, true_and]
    constructor
    · rintro ⟨_, h1, h2⟩
      exact ⟨h1, h2⟩
    · rintro ⟨h1, h2⟩
      exact ⟨_, h1, h2⟩

theorem checkWord_read_of_write {s : State} {a : Addr} (h : checkWord s .write a = .next ()) :
    checkWord s .read a = .next () := by
  rw [checkWord_next] at h ⊢
  exact ⟨h.1, checkAccess_read_of_write h.2.1, checkAccess_read_of_write h.2.2⟩

/-- Which bytes may be accessed depends on the memory map alone. -/
theorem checkWord_congr {s t : State} (h : t.memMap = s.memMap) (acc : Access) (a : Addr) :
    checkWord t acc a = checkWord s acc a := by
  simp [checkWord, checkAccess, h]

/-- A checked value: the check passed and the value is the one named. -/
theorem andThen_check {α : Type} {x : Res Unit} {v w : α} :
    andThen x (fun _ => .next v) = .next w ↔ x = .next () ∧ w = v := by
  cases x <;> simp [andThen, eq_comm]

/-- What `MemRead(a, 1)` can do (`20_memory.md` R62). -/
theorem memRead8_next {s : State} {a : Addr} {r : Byte × State} :
    memRead8 s a = .next r ↔ checkAccess s .read a = .next () ∧ r = (s.byteAt a, s.access (.readByte a)) := andThen_check

/-- What `MemRead(a, 2)` can do (`20_memory.md` R62). -/
theorem memRead16_next {s : State} {a : Addr} {r : Word × State} :
    memRead16 s a = .next r ↔ checkWord s .read a = .next () ∧ r = (s.wordAt a, s.access (.readWord a)) := andThen_check

/-- What `MemWrite(a, 1, v)` can do (`20_memory.md` R63). -/
theorem memWrite8_next {s t : State} {a : Addr} {v : Byte} :
    memWrite8 s a v = .next t ↔ checkAccess s .write a = .next () ∧ t = (s.access (.writeByte a v)).putByte a v :=
  andThen_check

/-- What `MemWrite(a, 2, v)` can do (`20_memory.md` R63). -/
theorem memWrite16_next {s t : State} {a : Addr} {v : Word} :
    memWrite16 s a v = .next t ↔ checkWord s .write a = .next () ∧ t = (s.access (.writeWord a v)).putWord a v :=
  andThen_check

/-- `MemWrite(a, 1, v)` keeps the canonical form. -/
theorem memWrite8_wf {s t : State} {a : Addr} {v : Byte} (h : memWrite8 s a v = .next t) (hs : Memory.wf s.mem = true) :
    Memory.wf t.mem = true := by
  obtain ⟨-, rfl⟩ := memWrite8_next.1 h
  exact State.wf_putByte _ a v hs

/-- `MemWrite(a, 2, v)` keeps the canonical form. -/
theorem memWrite16_wf {s t : State} {a : Addr} {v : Word} (h : memWrite16 s a v = .next t) (hs : Memory.wf s.mem = true) :
    Memory.wf t.mem = true := by
  obtain ⟨-, rfl⟩ := memWrite16_next.1 h
  exact State.wf_putWord _ a v hs

/-- The memory after reset has the canonical form. -/
theorem reset_mem_wf : Memory.wf State.reset.mem = true := rfl

end Sys2Proof.Machine
end

