-- ==== Sys2Proof/Laws/Ops.lean ====
section
/-! SUPPORT. One lemma for each shared operation that says all it can do: the shapes of the instructions, taking an exception
and returning from one, reset, the fetch and the step boundary. -/

namespace Sys2Proof.Machine

/-! ### The shapes of the instructions -/

theorem SameMemory.refl (s : State) : SameMemory s s := ⟨fun _ => rfl, rfl⟩

/-- Writing a register, the PSR and the PC leaves memory as it was. -/
theorem sameMemory_setReg (s : State) (d : Reg) (v : Word) (p : Psr) (n : Nat) :
    SameMemory s (((s.setPsr p).setReg d v).advance n) := ⟨fun _ => rfl, rfl⟩

/-- A word written to a register, a PSR, and an advance: a word result. -/
theorem wordResult_of_setReg (s : State) (d : Reg) (v : Word) (p : Psr) (n : Nat) :
    WordResult d v p n s (((s.setPsr p).setReg d v).advance n) :=
  ⟨by simp, fun r h => by simp [State.reg_setReg_other _ _ h], rfl, rfl, ⟨fun _ => rfl, rfl⟩,
    ⟨rfl, rfl, rfl, rfl, rfl, rfl, rfl, rfl, rfl⟩⟩

/-- A byte written to a register, a PSR, and an advance: a byte result. -/
theorem byteResult_of_setRegByte (s : State) (d : Reg) (v : Byte) (p : Psr) (n : Nat) :
    ByteResult d v p n s (((s.setPsr p).setRegByte d v).advance n) :=
  ⟨by simp, by simp, fun r h => by simp [State.reg_setRegByte_other _ _ h], rfl, rfl, ⟨fun _ => rfl, rfl⟩,
    ⟨rfl, rfl, rfl, rfl, rfl, rfl, rfl, rfl, rfl⟩⟩

/-- A byte operation that changes no flag. -/
theorem byteResult_spec (op : Byte → Byte → Byte) (src : Src) (d : Reg) (s : State) :
    ∃ t, byteResult op src d s = .next t ∧ ByteResult d (op (s.regByte d) (srcByte s src)) s.psr (srcLen src) s t :=
  ⟨_, rfl, byteResult_of_setRegByte s d _ s.psr _⟩

/-- A word operation that changes no flag. -/
theorem wordResult_spec (op : Word → Word → Word) (src : Src) (d : Reg) (s : State) :
    ∃ t, wordResult op src d s = .next t ∧ WordResult d (op (s.reg d) (srcWord s src)) s.psr (srcLen src) s t :=
  ⟨_, rfl, wordResult_of_setReg s d _ s.psr _⟩

/-- A byte addition or subtraction. -/
theorem byteArith_spec (result : Byte → Byte → Bool → Byte) (carry overflow : Byte → Byte → Bool → Bool) (c : Bool)
    (src : Src) (d : Reg) (s : State) :
    ∃ t, byteArith result carry overflow c src d s = .next t ∧
      ByteResult d (result (s.regByte d) (srcByte s src) c)
        (s.psr.withCarryOverflow (carry (s.regByte d) (srcByte s src) c) (overflow (s.regByte d) (srcByte s src) c))
        (srcLen src) s t :=
  ⟨_, rfl, byteResult_of_setRegByte s d _ _ _⟩

/-- A word addition or subtraction. -/
theorem wordArith_spec (result : Word → Word → Bool → Word) (carry overflow : Word → Word → Bool → Bool) (c : Bool)
    (src : Src) (d : Reg) (s : State) :
    ∃ t, wordArith result carry overflow c src d s = .next t ∧
      WordResult d (result (s.reg d) (srcWord s src) c)
        (s.psr.withCarryOverflow (carry (s.reg d) (srcWord s src) c) (overflow (s.reg d) (srcWord s src) c))
        (srcLen src) s t :=
  ⟨_, rfl, wordResult_of_setReg s d _ _ _⟩

/-- A byte shift. -/
theorem byteShift_spec (op : Byte → Int → Byte → Byte) (count : Src) (d : Reg) (s : State) :
    ∃ t, byteShift op count d s = .next t ∧
      ByteResult d (op (s.regByte d) (shiftCount s count) (Config.freeShiftByte s.draws)) s.psr (srcLen count) s t :=
  ⟨_, rfl, byteResult_of_setRegByte s d _ s.psr _⟩

/-- A word shift. -/
theorem wordShift_spec (op : Word → Int → Word → Word) (count : Src) (d : Reg) (s : State) :
    ∃ t, wordShift op count d s = .next t ∧
      WordResult d (op (s.reg d) (shiftCount s count) (Config.freeShiftWord s.draws)) s.psr (srcLen count) s t :=
  ⟨_, rfl, wordResult_of_setReg s d _ s.psr _⟩

/-- Scond. -/
theorem saveCondition_spec (c : Cond) (d : Reg) (s : State) :
    ∃ t, saveCondition c d s = .next t ∧
      WordResult d (if condHolds c s.psr then 0x0001#16 else 0x0000#16) s.psr 2 s t :=
  ⟨_, rfl, wordResult_of_setReg s d _ s.psr _⟩

/-- A branch. -/
theorem branch_spec (taken : Bool) (disp : Disp) (s : State) :
    ∃ t, branch taken disp s = .next t ∧
      NoRegResult s.psr (if taken then branchTarget s.pc (dispValue disp) else nextPc s.pc (dispLen disp)) s t := by
  refine ⟨_, rfl, ?_⟩
  cases taken <;> exact ⟨fun _ => rfl, rfl, rfl, ⟨fun _ => rfl, rfl⟩, rfl, rfl, rfl, rfl, rfl, rfl, rfl, rfl, rfl⟩

/-- A jump. -/
theorem jump_spec (taken : Bool) (target : Reg) (s : State) :
    ∃ t, jump taken target s = .next t ∧
      NoRegResult s.psr (if taken then ofCodePointer (s.reg target) else nextPc s.pc 2) s t := by
  refine ⟨_, rfl, ?_⟩
  cases taken <;> exact ⟨fun _ => rfl, rfl, rfl, ⟨fun _ => rfl, rfl⟩, rfl, rfl, rfl, rfl, rfl, rfl, rfl, rfl, rfl⟩

/-! ### The bits of the PC and of the dedicated registers -/

/-- A legal PC as a number: even and below 2^17 (`10_state.md` R25). -/
theorem pcLegal_iff (a : Addr) : pcLegal a ↔ a.toNat < 2 ^ 17 ∧ a.toNat % 2 = 0 := by
  have := a.isLt
  simp only [pcLegal, BitVec.getLsbD, Nat.testBit_eq_decide_div_mod_eq]
  simp
  omega

/-- A legal ISP or INTBASE as a number: even and below 2^16 (`10_state.md` R28, R29). -/
theorem dedicatedLegal_iff (a : Addr) : dedicatedLegal a ↔ a.toNat < 2 ^ 16 ∧ a.toNat % 2 = 0 := by
  have := a.isLt
  simp only [dedicatedLegal, BitVec.getLsbD, Nat.testBit_eq_decide_div_mod_eq]
  simp
  omega

/-- What a write of the PC stores is legal (`10_state.md` R25). -/
theorem pcLegal_pcForce (a : Addr) : pcLegal (pcForce a) := by
  constructor <;> simp only [pcForce, BitVec.getLsbD_append] <;> simp

theorem pcLegal_nextPc (a : Addr) (n : Nat) : pcLegal (nextPc a n) := pcLegal_pcForce _

theorem pcLegal_branchTarget (a d : Addr) : pcLegal (branchTarget a d) := pcLegal_pcForce _

theorem pcLegal_ofCodePointer (v : Word) : pcLegal (ofCodePointer v) := by
  constructor <;> simp only [ofCodePointer, BitVec.getLsbD_append] <;> simp

/-- What LPR stores in ISP or INTBASE is legal (`10_state.md` R28, R29). -/
theorem dedicatedLegal_dedicatedOfWord (v : Word) : dedicatedLegal (dedicatedOfWord v) := by
  refine ⟨?_, ?_, ?_⟩ <;> simp only [dedicatedOfWord, BitVec.getLsbD_append] <;> simp

/-- A legal PC is rebuilt from its code pointer (`47_jumps.md` R234). -/
theorem ofCodePointer_codePointer {a : Addr} (h : pcLegal a) : ofCodePointer (codePointer a) = a := by
  apply BitVec.eq_of_getLsbD_eq
  intro k hk
  simp only [ofCodePointer, codePointer, BitVec.getLsbD_append, BitVec.getLsbD_extractLsb']
  rcases Nat.eq_zero_or_pos k with rfl | hk0
  · simpa using h.2.symm
  · by_cases h17 : k = 17
    · subst h17
      simpa using h.1.symm
    · simp [show ¬ k < 1 by omega, show k - 1 < 16 by omega, show 1 + (k - 1) = k by omega]

/-! ### The PSR image (`46_procreg.md` R209) -/

/-- An image holds the nine fields in their bits and zero in bits 3, 4 and 8. -/
theorem psrImage_image (p : Psr) (reserved : BitVec 4) : PsrImage p (p.image reserved) := by
  refine ⟨?_, ?_, ?_, ?_, ?_, ?_, ?_, ?_, ?_, ?_, ?_, ?_⟩ <;>
    simp only [Psr.image, BitVec.getLsbD_append, BitVec.getLsbD_ofBool] <;> simp

/-- Reading an image back gives the PSR. -/
theorem Psr.ofImage_of_psrImage {p : Psr} {w : Word} (h : PsrImage p w) : Psr.ofImage w = p := by
  obtain ⟨h0, h1, h2, -, -, h5, h6, h7, -, h9, h10, h11⟩ := h
  simp only [Psr.ofImage, *]

@[simp] theorem Psr.ofImage_image (p : Psr) (reserved : BitVec 4) : Psr.ofImage (p.image reserved) = p :=
  Psr.ofImage_of_psrImage (psrImage_image p reserved)

/-! ### Taking an exception (`60_exceptions.md` R296) -/

/-- The first push of an exception entry: the code pointer of the PC at the new ISP. -/
def pushPc (s : State) : State :=
  (({ s with isp := s.isp - 4#18 } : State).access (.writeWord (s.isp - 4#18) (codePointer s.pc))).putWord (s.isp - 4#18)
    (codePointer s.pc)

/-- Both pushes: the PSR image lies above the code pointer. -/
def pushFrame (k : Exc) (s : State) : State :=
  ((pushPc s).access (.writeWord (s.isp - 4#18 + 2#18) ((savedPsr k s.psr).image (Config.freeReservedBits s.draws)))).putWord
    (s.isp - 4#18 + 2#18) ((savedPsr k s.psr).image (Config.freeReservedBits s.draws))

/-- All that taking an exception can do: where it answers a next state, it was ready and that is the state. -/
theorem enter_next {k : Exc} {s t : State} :
    enter k s = .next t ↔
      4 ≤ s.isp.toNat ∧ checkWord s .write (s.isp - 4#18) = .next () ∧
        checkWord s .write (s.isp - 4#18 + 2#18) = .next () ∧ checkWord s .read (dispatchAddr k s) = .next () ∧
        t = ({ ((pushFrame k s).acknowledge k).access (.readWord (dispatchAddr k s)) with
          psr := handlerPsr k s.psr
          pc := ofCodePointer ((pushFrame k s).wordAt (dispatchAddr k s))
          waiting := false } : State).serialize := by
  unfold enter
  by_cases h4 : s.isp.toNat < 4
  · simp [h4, show ¬ 4 ≤ s.isp.toNat by omega]
  · rw [if_neg h4]
    simp only [andThen_next, memWrite16_next, memRead16_next]
    constructor
    · rintro ⟨s1, ⟨c1, e1⟩, s2, ⟨c2, e2⟩, w, ⟨c3, e3⟩, e⟩
      obtain rfl : s1 = pushPc s := e1
      obtain rfl : s2 = pushFrame k s := e2
      subst e3
      exact ⟨by omega, (checkWord_congr rfl _ _).symm.trans c1, (checkWord_congr rfl _ _).symm.trans c2,
        (checkWord_congr rfl _ _).symm.trans c3, (Host.Outcome.next.inj e).symm⟩
    · rintro ⟨-, c1, c2, c3, rfl⟩
      refine ⟨pushPc s, ⟨?_, rfl⟩, pushFrame k s, ⟨?_, rfl⟩, _, ⟨?_, rfl⟩, ?_⟩
      · exact (checkWord_congr rfl _ _).trans c1
      · exact (checkWord_congr rfl _ _).trans c2
      · exact (checkWord_congr (s := s) (t := (pushFrame k s).acknowledge k) rfl _ _).trans c3
      · rfl

/-- The first push keeps the canonical form of memory. -/
theorem pushPc_wf (s : State) (h : Memory.wf s.mem = true) : Memory.wf (pushPc s).mem = true := State.wf_putWord _ _ _ h

/-- The pushes keep the canonical form of memory. -/
theorem pushFrame_wf (k : Exc) (s : State) (h : Memory.wf s.mem = true) : Memory.wf (pushFrame k s).mem = true :=
  State.wf_putWord _ _ _ (pushPc_wf s h)

/-- The four bytes of the frame are different addresses. -/
theorem frame_addresses (a : Addr) :
    a - 4#18 + 1#18 = a - 3#18 ∧ a - 4#18 + 2#18 = a - 2#18 ∧ a - 2#18 + 1#18 = a - 1#18 ∧ a - 4#18 ≠ a - 2#18 ∧
      a - 4#18 ≠ a - 1#18 ∧ a - 3#18 ≠ a - 2#18 ∧ a - 3#18 ≠ a - 1#18 := by
  refine ⟨?_, ?_, ?_, ?_, ?_, ?_, ?_⟩ <;> bv_omega

/-- A byte the second push does not store is what the first push left. -/
theorem pushFrame_byteAt (k : Exc) (s : State) {a : Addr} (h : Memory.wf s.mem = true) (h2 : a ≠ s.isp - 2#18)
    (h1 : a ≠ s.isp - 1#18) : (pushFrame k s).byteAt a = (pushPc s).byteAt a := by
  obtain ⟨-, e2, e3, -⟩ := frame_addresses s.isp
  exact State.byteAt_putWord_other _ _ (pushPc_wf s h) (.inl ⟨by rw [e2]; exact h2, by rw [e2, e3]; exact h1⟩)

/-- A byte the first push does not store is what it was. -/
theorem pushPc_byteAt (s : State) {a : Addr} (h : Memory.wf s.mem = true) (h4 : a ≠ s.isp - 4#18) (h3 : a ≠ s.isp - 3#18) :
    (pushPc s).byteAt a = s.byteAt a := by
  obtain ⟨e1, -⟩ := frame_addresses s.isp
  exact State.byteAt_putWord_other _ _ h (.inl ⟨h4, by rw [e1]; exact h3⟩)

/-- The code pointer of the interrupted PC is stored at the new ISP (`60_exceptions.md` R298). -/
theorem pushFrame_savedPc (k : Exc) (s : State) (h : Memory.wf s.mem = true) :
    WordStored (s.isp - 4#18) (codePointer s.pc) s (pushFrame k s) := by
  obtain ⟨e1, -, -, n1, n2, n3, n4⟩ := frame_addresses s.isp
  obtain ⟨w0, w1⟩ := wordStored_putWord (({ s with isp := s.isp - 4#18 } : State).access
    (.writeWord (s.isp - 4#18) (codePointer s.pc))) (s.isp - 4#18) (codePointer s.pc) h
  refine ⟨?_, ?_⟩
  · rw [ByteStored, pushFrame_byteAt k s h n1 n2]
    exact w0
  · rw [ByteStored, pushFrame_byteAt k s h (by rw [e1]; exact n3) (by rw [e1]; exact n4)]
    exact w1

/-- The PSR image is stored above it (`60_exceptions.md` R298). -/
theorem pushFrame_savedPsr (k : Exc) (s : State) (h : Memory.wf s.mem = true) :
    WordStored (s.isp - 2#18) ((savedPsr k s.psr).image (Config.freeReservedBits s.draws)) s (pushFrame k s) := by
  obtain ⟨e1, e2, e3, n1, n2, n3, n4⟩ := frame_addresses s.isp
  have w := wordStored_putWord ((pushPc s).access
    (.writeWord (s.isp - 4#18 + 2#18) ((savedPsr k s.psr).image (Config.freeReservedBits s.draws))))
    (s.isp - 4#18 + 2#18) ((savedPsr k s.psr).image (Config.freeReservedBits s.draws)) (pushPc_wf s h)
  change WordStored _ _ _ (pushFrame k s) at w
  rw [e2] at w
  obtain ⟨w0, w1⟩ := w
  rw [ByteStored, State.byteAt_access, pushPc_byteAt s h n1.symm n3.symm] at w0
  rw [ByteStored, State.byteAt_access, e3, pushPc_byteAt s h n2.symm n4.symm] at w1
  refine ⟨w0, ?_⟩
  rw [ByteStored, e3]
  exact w1

/-- No other byte changes (`20_memory.md` R63). -/
theorem pushFrame_other (k : Exc) (s : State) {a : Addr} (h : Memory.wf s.mem = true) (h4 : a ≠ s.isp - 4#18)
    (h3 : a ≠ s.isp - 3#18) (h2 : a ≠ s.isp - 2#18) (h1 : a ≠ s.isp - 1#18) : (pushFrame k s).byteAt a = s.byteAt a :=
  (pushFrame_byteAt k s h h2 h1).trans (pushPc_byteAt s h h4 h3)

@[simp] theorem pushFrame_regs (k : Exc) (s : State) : (pushFrame k s).regs = s.regs := rfl
@[simp] theorem pushFrame_isp (k : Exc) (s : State) : (pushFrame k s).isp = s.isp - 4#18 := rfl
@[simp] theorem pushFrame_intbase (k : Exc) (s : State) : (pushFrame k s).intbase = s.intbase := rfl
@[simp] theorem pushFrame_cfg (k : Exc) (s : State) : (pushFrame k s).cfg = s.cfg := rfl
@[simp] theorem pushFrame_memMap (k : Exc) (s : State) : (pushFrame k s).memMap = s.memMap := rfl
@[simp] theorem pushFrame_inputs (k : Exc) (s : State) : (pushFrame k s).inputs = s.inputs := rfl
@[simp] theorem pushFrame_devices (k : Exc) (s : State) : (pushFrame k s).devices = s.devices := rfl
@[simp] theorem pushFrame_draws (k : Exc) (s : State) : (pushFrame k s).draws = s.draws := rfl
theorem pushFrame_bus (k : Exc) (s : State) :
    (pushFrame k s).bus =
      (BusAccess.writeWord (s.isp - 4#18 + 2#18) ((savedPsr k s.psr).image (Config.freeReservedBits s.draws))).seen s.memMap ++
        ((BusAccess.writeWord (s.isp - 4#18) (codePointer s.pc)).seen s.memMap ++ s.bus) := rfl

/-! ### Returning from an exception (`47_jumps.md` R235) -/

/-- All that RETX can do. -/
theorem returnFromException_next {s t : State} :
    returnFromException s = .next t ↔
      s.isp.toNat ≤ 0xFFFC ∧ checkWord s .read s.isp = .next () ∧ checkWord s .read (s.isp + 2#18) = .next () ∧
        t = ({ (s.access (.readWord s.isp)).access (.readWord (s.isp + 2#18)) with
          isp := s.isp + 4#18
          psr := Psr.ofImage (s.wordAt (s.isp + 2#18))
          pc := ofCodePointer (s.wordAt s.isp) } : State).serialize := by
  unfold returnFromException
  by_cases h : 0xFFFC < s.isp.toNat
  · simp [h, show ¬ s.isp.toNat ≤ 0xFFFC by omega]
  · rw [if_neg h]
    simp only [andThen_next, memRead16_next]
    constructor
    · rintro ⟨_, ⟨c1, rfl⟩, _, ⟨c2, rfl⟩, e⟩
      exact ⟨by omega, c1, c2, (Host.Outcome.next.inj e).symm⟩
    · rintro ⟨-, c1, c2, rfl⟩
      exact ⟨_, ⟨c1, rfl⟩, _, ⟨c2, rfl⟩, rfl⟩

/-! ### Reset (`70_reset_and_hazards.md` R341) -/

@[simp] theorem warmReset_pc (s : State) : (warmReset s).pc = 0x00000#18 := rfl
@[simp] theorem warmReset_psr (s : State) : (warmReset s).psr = Psr.afterReset := rfl
@[simp] theorem warmReset_cfg (s : State) : (warmReset s).cfg = 0x0000#16 := rfl
@[simp] theorem warmReset_mem (s : State) : (warmReset s).mem = s.mem := rfl
@[simp] theorem warmReset_waiting (s : State) : (warmReset s).waiting = false := rfl
@[simp] theorem warmReset_memMap (s : State) : (warmReset s).memMap = s.memMap := rfl
@[simp] theorem warmReset_inputs (s : State) : (warmReset s).inputs = s.inputs := rfl
@[simp] theorem warmReset_devices (s : State) : (warmReset s).devices = s.devices := rfl
@[simp] theorem warmReset_bus (s : State) : (warmReset s).bus = s.bus := rfl
@[simp] theorem warmReset_draws (s : State) : (warmReset s).draws = s.draws := rfl
@[simp] theorem warmReset_unserialized (s : State) : (warmReset s).unserialized = s.unserialized := rfl
theorem warmReset_isp (s : State) : dedicatedLegal (warmReset s).isp := dedicatedLegal_dedicatedOfWord _
theorem warmReset_intbase (s : State) : dedicatedLegal (warmReset s).intbase := dedicatedLegal_dedicatedOfWord _

/-! ### Loads and stores (`48_loadstore.md` R250, R251) -/

theorem execLoadb_next {m : Mode} {d : Reg} {s t : State} :
    execLoadb m d s = .next t ↔
      checkAccess s .read (effAddr s m) = .next () ∧
        t = ((s.access (.readByte (effAddr s m))).setRegByte d (s.byteAt (effAddr s m))).advance (modeLen m) := by
  simp only [execLoadb, andThen_next, memRead8_next]
  constructor
  · rintro ⟨_, ⟨c, rfl⟩, e⟩
    exact ⟨c, (Host.Outcome.next.inj e).symm⟩
  · rintro ⟨c, rfl⟩
    exact ⟨_, ⟨c, rfl⟩, rfl⟩

theorem execLoadw_next {m : Mode} {d : Reg} {s t : State} :
    execLoadw m d s = .next t ↔
      checkWord s .read (effAddr s m) = .next () ∧
        t = ((s.access (.readWord (effAddr s m))).setReg d (s.wordAt (effAddr s m))).advance (modeLen m) := by
  simp only [execLoadw, andThen_next, memRead16_next]
  constructor
  · rintro ⟨_, ⟨c, rfl⟩, e⟩
    exact ⟨c, (Host.Outcome.next.inj e).symm⟩
  · rintro ⟨c, rfl⟩
    exact ⟨_, ⟨c, rfl⟩, rfl⟩

theorem execStorb_next {m : Mode} {r : Reg} {s t : State} :
    execStorb r m s = .next t ↔
      checkAccess s .write (effAddr s m) = .next () ∧
        t = ((s.access (.writeByte (effAddr s m) (s.regByte r))).putByte (effAddr s m) (s.regByte r)).advance (modeLen m) := by
  simp only [execStorb, andThen_next, memWrite8_next]
  constructor
  · rintro ⟨_, ⟨c, rfl⟩, e⟩
    exact ⟨c, (Host.Outcome.next.inj e).symm⟩
  · rintro ⟨c, rfl⟩
    exact ⟨_, ⟨c, rfl⟩, rfl⟩

theorem execStorw_next {m : Mode} {r : Reg} {s t : State} :
    execStorw r m s = .next t ↔
      checkWord s .write (effAddr s m) = .next () ∧
        t = ((s.access (.writeWord (effAddr s m) (s.reg r))).putWord (effAddr s m) (s.reg r)).advance (modeLen m) := by
  simp only [execStorw, andThen_next, memWrite16_next]
  constructor
  · rintro ⟨_, ⟨c, rfl⟩, e⟩
    exact ⟨c, (Host.Outcome.next.inj e).symm⟩
  · rintro ⟨c, rfl⟩
    exact ⟨_, ⟨c, rfl⟩, rfl⟩

/-! ### The fetch (`20_memory.md` R64, R79) -/

/-- Nothing stored since the last serializing operation: a fetch sees the byte its address holds. -/
@[simp] theorem fetchByte_serialized {s : State} (h : s.unserialized = []) (a : Addr) : fetchByte s a = s.byteAt a := by
  simp [fetchByte, staleBytes, h]

/-- What the fetch of a word can do. -/
theorem fetchWord_next {s : State} {a : Addr} {w : Word} :
    fetchWord s a = .next w ↔
      checkWord s .read a = .next () ∧ w = wordOfBytes (fetchByte s a) (fetchByte s (a + 1#18)) := andThen_check

/-- What the fetch of an instruction can do: a two-byte instruction, or a four-byte one with its second word. -/
theorem fetchInstr_next {s : State} {i : Instr} :
    fetchInstr s = .next i ↔
      ∃ w, fetchWord s s.pc = .next w ∧
        ((isLong w = false ∧ i = decodeWords w 0#16) ∨
          (isLong w = true ∧ s.pc.toNat < 0x1FFFE ∧
            ∃ w2, fetchWord s (s.pc + 2#18) = .next w2 ∧ i = decodeWords w w2)) := by
  unfold fetchInstr
  rw [andThen_next]
  refine exists_congr fun w => and_congr_right fun _ => ?_
  cases hl : isLong w
  · simp [eq_comm]
  · by_cases hp : 0x1FFFE ≤ s.pc.toNat
    · simp [hp, show ¬ s.pc.toNat < 0x1FFFE by omega]
    · have hp' : s.pc.toNat < 0x1FFFE := by omega
      rw [if_pos rfl, if_neg hp, andThen_next]
      constructor
      · rintro ⟨w2, h2, e⟩
        exact .inr ⟨rfl, hp', w2, h2, (Host.Outcome.next.inj e).symm⟩
      · rintro (⟨e, -⟩ | ⟨-, -, w2, h2, rfl⟩)
        · cases e
        · exact ⟨w2, h2, rfl⟩

/-! ### The step (`60_exceptions.md` R305) -/

/-- All that a step can do: reset, an exception, idling, or the instruction at the PC. -/
theorem step_next {s t : State} (h : step s = .next t) :
    (nextEvent s = .reset ∧ t = warmReset s.tick) ∨
      (∃ k, nextEvent s = .exception k ∧ enter k s.tick = .next t) ∨
      (nextEvent s = .idle ∧ t = s.tick) ∨
      (nextEvent s = .instruction ∧ ∃ i, fetchInstr s.tick.copyTrace = .next i ∧ exec i s.tick.copyTrace = .next t) := by
  unfold step at h
  split at h
  · exact .inl ⟨‹_›, (Host.Outcome.next.inj h).symm⟩
  · exact .inr (.inl ⟨_, ‹_›, h⟩)
  · exact .inr (.inr (.inl ⟨‹_›, (Host.Outcome.next.inj h).symm⟩))
  · exact .inr (.inr (.inr ⟨‹_›, andThen_next.1 h⟩))

end Sys2Proof.Machine
end

