-- ==== Sys2Proof/Laws/Decode.lean ====
section
/-! SUPPORT. The fields of a packed word, the codes of registers, and the bytes of a word. -/

namespace Sys2Proof

/-! ### Bytes and words (`20_memory.md` R64) -/

/-- A word is rebuilt from its two bytes. -/
@[simp] theorem wordOfBytes_extract (w : Word) : wordOfBytes (w.extractLsb' 0 8) (w.extractLsb' 8 8) = w :=
  Machine.append_extract w

/-! ### The fields of a first word (`30_encoding.md` R92) -/

section fields
variable (op2 : BitVec 2) (i : BitVec 1) (f a b : BitVec 4) (z : BitVec 1)

@[simp] theorem fieldOp2_packWord : fieldOp2 (packWord op2 i f a b z) = op2 := by
  apply BitVec.eq_of_getLsbD_eq
  intro k hk
  simp only [fieldOp2, packWord, BitVec.getLsbD_extractLsb', BitVec.getLsbD_append]
  interval_cases k <;> simp

@[simp] theorem fieldI_packWord : fieldI (packWord op2 i f a b z) = i := by
  apply BitVec.eq_of_getLsbD_eq
  intro k hk
  simp only [fieldI, packWord, BitVec.getLsbD_extractLsb', BitVec.getLsbD_append]
  interval_cases k
  simp

@[simp] theorem fieldF_packWord : fieldF (packWord op2 i f a b z) = f := by
  apply BitVec.eq_of_getLsbD_eq
  intro k hk
  simp only [fieldF, packWord, BitVec.getLsbD_extractLsb', BitVec.getLsbD_append]
  interval_cases k <;> simp

@[simp] theorem fieldA_packWord : fieldA (packWord op2 i f a b z) = a := by
  apply BitVec.eq_of_getLsbD_eq
  intro k hk
  simp only [fieldA, packWord, BitVec.getLsbD_extractLsb', BitVec.getLsbD_append]
  interval_cases k <;> simp

@[simp] theorem fieldB_packWord : fieldB (packWord op2 i f a b z) = b := by
  apply BitVec.eq_of_getLsbD_eq
  intro k hk
  simp only [fieldB, packWord, BitVec.getLsbD_extractLsb', BitVec.getLsbD_append]
  interval_cases k <;> simp

@[simp] theorem fieldZ_packWord : fieldZ (packWord op2 i f a b z) = z := by
  apply BitVec.eq_of_getLsbD_eq
  intro k hk
  simp only [fieldZ, packWord, BitVec.getLsbD_extractLsb', BitVec.getLsbD_append]
  interval_cases k
  simp

end fields

/-- A word is rebuilt from its fields. -/
theorem packWord_fields (w : Word) : packWord (fieldOp2 w) (fieldI w) (fieldF w) (fieldA w) (fieldB w) (fieldZ w) = w := by
  apply BitVec.eq_of_getLsbD_eq
  intro k hk
  simp only [fieldOp2, fieldI, fieldF, fieldA, fieldB, fieldZ, packWord, BitVec.getLsbD_append, BitVec.getLsbD_extractLsb']
  interval_cases k <;> simp

/-! ### Codes (`10_state.md` R21, R43) -/

@[simp] theorem Reg.ofCode_code (r : Reg) : Reg.ofCode r.code = r := by
  cases r <;> rfl

@[simp] theorem Reg.code_ofCode (c : BitVec 4) : (Reg.ofCode c).code = c := by
  revert c
  decide

@[simp] theorem ProcReg.ofCode_code (r : ProcReg) : ProcReg.ofCode r.code = some r := by
  cases r <;> rfl

end Sys2Proof
end

