-- ==== Sys2Proof/Laws/PerInstr.lean ====
section
/-! SUPPORT. A statement about every instruction, one lemma for each constructor: the bytes of an instruction are two or four
(`30_encoding.md` R90, R91). -/

namespace Sys2Proof.Laws.EncodedLength

/-- An instruction is two or four bytes long (`30_encoding.md` R90). -/
def Statement (i : Instr) : Prop := (encodeBytes i).length = 2 ∨ (encodeBytes i).length = 4

/-- The basic formats. -/
theorem alu (i : BitVec 1) (f : BitVec 4) (d : Reg) (src : Src) :
    ((encodeAlu i f d src).flatMap bytesOfWord).length = 2 ∨ ((encodeAlu i f d src).flatMap bytesOfWord).length = 4 := by
  cases src
  · exact .inl rfl
  · exact .inl rfl
  · exact .inr rfl

/-- The branch formats. -/
theorem branchForm (c : BitVec 4) (disp : Disp) :
    ((encodeBranch c disp).flatMap bytesOfWord).length = 2 ∨ ((encodeBranch c disp).flatMap bytesOfWord).length = 4 := by
  cases disp
  · exact .inl rfl
  · exact .inr rfl

/-- The load and store formats. -/
theorem loadStore (op2 : BitVec 2) (i : BitVec 1) (r : Reg) (m : Mode) :
    ((encodeLoadStore op2 i r m).flatMap bytesOfWord).length = 2 ∨
      ((encodeLoadStore op2 i r m).flatMap bytesOfWord).length = 4 := by
  cases m
  · exact .inl rfl
  · exact .inr rfl
  · exact .inr rfl
  · exact .inr rfl

theorem movb (src : Src) (dest : Reg) : Statement (Instr.movb src dest) := alu _ _ _ _
theorem movw (src : Src) (dest : Reg) : Statement (Instr.movw src dest) := alu _ _ _ _
theorem movxb (src dest : Reg) : Statement (Instr.movxb src dest) := .inl rfl
theorem movzb (src dest : Reg) : Statement (Instr.movzb src dest) := .inl rfl
theorem addb (src : Src) (dest : Reg) : Statement (Instr.addb src dest) := alu _ _ _ _
theorem addw (src : Src) (dest : Reg) : Statement (Instr.addw src dest) := alu _ _ _ _
theorem addub (src : Src) (dest : Reg) : Statement (Instr.addub src dest) := alu _ _ _ _
theorem adduw (src : Src) (dest : Reg) : Statement (Instr.adduw src dest) := alu _ _ _ _
theorem addcb (src : Src) (dest : Reg) : Statement (Instr.addcb src dest) := alu _ _ _ _
theorem addcw (src : Src) (dest : Reg) : Statement (Instr.addcw src dest) := alu _ _ _ _
theorem mulb (src : Src) (dest : Reg) : Statement (Instr.mulb src dest) := alu _ _ _ _
theorem mulw (src : Src) (dest : Reg) : Statement (Instr.mulw src dest) := alu _ _ _ _
theorem subb (src : Src) (dest : Reg) : Statement (Instr.subb src dest) := alu _ _ _ _
theorem subw (src : Src) (dest : Reg) : Statement (Instr.subw src dest) := alu _ _ _ _
theorem subcb (src : Src) (dest : Reg) : Statement (Instr.subcb src dest) := alu _ _ _ _
theorem subcw (src : Src) (dest : Reg) : Statement (Instr.subcw src dest) := alu _ _ _ _
theorem cmpb (src1 : Src) (src2 : Reg) : Statement (Instr.cmpb src1 src2) := alu _ _ _ _
theorem cmpw (src1 : Src) (src2 : Reg) : Statement (Instr.cmpw src1 src2) := alu _ _ _ _
theorem andb (src : Src) (dest : Reg) : Statement (Instr.andb src dest) := alu _ _ _ _
theorem andw (src : Src) (dest : Reg) : Statement (Instr.andw src dest) := alu _ _ _ _
theorem orb (src : Src) (dest : Reg) : Statement (Instr.orb src dest) := alu _ _ _ _
theorem orw (src : Src) (dest : Reg) : Statement (Instr.orw src dest) := alu _ _ _ _
theorem xorb (src : Src) (dest : Reg) : Statement (Instr.xorb src dest) := alu _ _ _ _
theorem xorw (src : Src) (dest : Reg) : Statement (Instr.xorw src dest) := alu _ _ _ _
theorem seq (dest : Reg) : Statement (Instr.seq dest) := .inl rfl
theorem sne (dest : Reg) : Statement (Instr.sne dest) := .inl rfl
theorem scs (dest : Reg) : Statement (Instr.scs dest) := .inl rfl
theorem scc (dest : Reg) : Statement (Instr.scc dest) := .inl rfl
theorem shi (dest : Reg) : Statement (Instr.shi dest) := .inl rfl
theorem sls (dest : Reg) : Statement (Instr.sls dest) := .inl rfl
theorem sgt (dest : Reg) : Statement (Instr.sgt dest) := .inl rfl
theorem sle (dest : Reg) : Statement (Instr.sle dest) := .inl rfl
theorem sfs (dest : Reg) : Statement (Instr.sfs dest) := .inl rfl
theorem sfc (dest : Reg) : Statement (Instr.sfc dest) := .inl rfl
theorem slo (dest : Reg) : Statement (Instr.slo dest) := .inl rfl
theorem shs (dest : Reg) : Statement (Instr.shs dest) := .inl rfl
theorem slt (dest : Reg) : Statement (Instr.slt dest) := .inl rfl
theorem sge (dest : Reg) : Statement (Instr.sge dest) := .inl rfl
theorem ashub (count : Src) (dest : Reg) : Statement (Instr.ashub count dest) := alu _ _ _ _
theorem ashuw (count : Src) (dest : Reg) : Statement (Instr.ashuw count dest) := alu _ _ _ _
theorem lshb (count : Src) (dest : Reg) : Statement (Instr.lshb count dest) := alu _ _ _ _
theorem lshw (count : Src) (dest : Reg) : Statement (Instr.lshw count dest) := alu _ _ _ _
theorem tbit (offset : Src) (src : Reg) : Statement (Instr.tbit offset src) := alu _ _ _ _
theorem lpr (src : Reg) (dest : ProcReg) : Statement (Instr.lpr src dest) := .inl rfl
theorem spr (src : ProcReg) (dest : Reg) : Statement (Instr.spr src dest) := .inl rfl
theorem beq (disp : Disp) : Statement (Instr.beq disp) := branchForm _ _
theorem bne (disp : Disp) : Statement (Instr.bne disp) := branchForm _ _
theorem bcs (disp : Disp) : Statement (Instr.bcs disp) := branchForm _ _
theorem bcc (disp : Disp) : Statement (Instr.bcc disp) := branchForm _ _
theorem bhi (disp : Disp) : Statement (Instr.bhi disp) := branchForm _ _
theorem bls (disp : Disp) : Statement (Instr.bls disp) := branchForm _ _
theorem bgt (disp : Disp) : Statement (Instr.bgt disp) := branchForm _ _
theorem ble (disp : Disp) : Statement (Instr.ble disp) := branchForm _ _
theorem bfs (disp : Disp) : Statement (Instr.bfs disp) := branchForm _ _
theorem bfc (disp : Disp) : Statement (Instr.bfc disp) := branchForm _ _
theorem blo (disp : Disp) : Statement (Instr.blo disp) := branchForm _ _
theorem bhs (disp : Disp) : Statement (Instr.bhs disp) := branchForm _ _
theorem blt (disp : Disp) : Statement (Instr.blt disp) := branchForm _ _
theorem bge (disp : Disp) : Statement (Instr.bge disp) := branchForm _ _
theorem br (disp : Disp) : Statement (Instr.br disp) := branchForm _ _
theorem bal (link : Reg) (disp : BitVec 17) : Statement (Instr.bal link disp) := .inr rfl
theorem excp (vector : BitVec 4) : Statement (Instr.excp vector) := .inl rfl
theorem jeq (target : Reg) : Statement (Instr.jeq target) := .inl rfl
theorem jne (target : Reg) : Statement (Instr.jne target) := .inl rfl
theorem jcs (target : Reg) : Statement (Instr.jcs target) := .inl rfl
theorem jcc (target : Reg) : Statement (Instr.jcc target) := .inl rfl
theorem jhi (target : Reg) : Statement (Instr.jhi target) := .inl rfl
theorem jls (target : Reg) : Statement (Instr.jls target) := .inl rfl
theorem jgt (target : Reg) : Statement (Instr.jgt target) := .inl rfl
theorem jle (target : Reg) : Statement (Instr.jle target) := .inl rfl
theorem jfs (target : Reg) : Statement (Instr.jfs target) := .inl rfl
theorem jfc (target : Reg) : Statement (Instr.jfc target) := .inl rfl
theorem jlo (target : Reg) : Statement (Instr.jlo target) := .inl rfl
theorem jhs (target : Reg) : Statement (Instr.jhs target) := .inl rfl
theorem jlt (target : Reg) : Statement (Instr.jlt target) := .inl rfl
theorem jge (target : Reg) : Statement (Instr.jge target) := .inl rfl
theorem jump (target : Reg) : Statement (Instr.jump target) := .inl rfl
theorem jal (link target : Reg) : Statement (Instr.jal link target) := .inl rfl
theorem retx : Statement (Instr.retx) := .inl rfl
theorem loadb (src : Mode) (dest : Reg) : Statement (Instr.loadb src dest) := loadStore _ _ _ _
theorem loadw (src : Mode) (dest : Reg) : Statement (Instr.loadw src dest) := loadStore _ _ _ _
theorem storb (src : Reg) (dest : Mode) : Statement (Instr.storb src dest) := loadStore _ _ _ _
theorem storw (src : Reg) (dest : Mode) : Statement (Instr.storw src dest) := loadStore _ _ _ _
theorem di : Statement (Instr.di) := .inl rfl
theorem ei : Statement (Instr.ei) := .inl rfl
theorem nop : Statement (Instr.nop) := .inl rfl
theorem wait : Statement (Instr.wait) := .inl rfl
theorem und (word : Word) : Statement (Instr.und word) := .inl rfl
theorem unspecified (words : Words) : Statement (Instr.unspecified words) := by
  cases words
  · exact .inl rfl
  · exact .inr rfl

end Sys2Proof.Laws.EncodedLength
end

