-- ==== Sys2Proof/Tests/Slice0.lean ====
section
/-! SUPPORT. The model's own tests: words written out from the spec's encodings, ill-formed terms, single steps of
`95_test_vectors.md` part 2 (computed there from the rules), and states that meet the hypotheses of the obligations. -/

namespace Sys2Proof.Tests

open Sys2Proof.Machine

/-! ### Helpers -/

/-- The PSR with every field 0. -/
def noFlags : Psr := ⟨false, false, false, false, false, false, false, false, false⟩

/-- The bytes of words, low byte first (`20_memory.md` R61). -/
def bytes (ws : List Word) : List Byte := ws.flatMap fun w => [w.extractLsb' 0 8, w.extractLsb' 8 8]

/-- The machine at a PC with instruction words there and every flag 0. -/
def start (pc : Addr) (ws : List Word) : State :=
  placeBytes { State.reset with pc := pc, psr := noFlags } pc (bytes ws)

/-- Bytes of memory from an address on. -/
def put (a : Addr) (bs : List Byte) (s : State) : State := placeBytes s a bs

/-- A value of a general register. -/
def gpr (r : Reg) (v : Word) (s : State) : State := s.setReg r v

/-- Values of the PSR, ISP, INTBASE. -/
def psr (p : Psr) (s : State) : State := { s with psr := p }
def isp (a : Addr) (s : State) : State := { s with isp := a }
def intbase (a : Addr) (s : State) : State := { s with intbase := a }

/-- What the platform presents at the next step boundary. -/
def presents (x : Sample) (s : State) : State := { s with inputs := [x] }

/-- The requests of one boundary. -/
def nmiRequest : Sample := { Sample.none with nmi := true }
def irqRequest (b : Byte) : Sample := { Sample.none with irq := true, icuByte := b }
def iseRequest : Sample := { Sample.none with ise := true }
def resetRequest : Sample := { Sample.none with reset := true }

/-- One step completes and the state after it passes a check. -/
def runs (s : State) (ok : State → Bool) : Bool :=
  match step s with
  | .next t => ok t
  | .fault _ => false
  | .refused _ => false

/-- One step stops with a refusal. -/
def refuses (s : State) (r : Refusal) : Bool :=
  match step s with
  | .next _ => false
  | .fault _ => false
  | .refused x => x == r

/-- A word is the encoding of an instruction: it decodes to it, and it is what the encoder writes. -/
def isCode (ws : List Word) (i : Instr) : Bool := decodeWords (ws.headD 0) (ws.getD 1 0) == i && encode i == ws

/-! ### Every constructor's word, bit by bit from the encodings of `30_encoding.md` (R94 to R115) -/

theorem test_decode_format_rr :
    ([ ([0b01_0_0000_0010_0001_1], .addb (.reg .r1) .r2), ([0b01_1_0000_0010_0001_1], .addw (.reg .r1) .r2),
       ([0b01_0_0001_1111_1110_1], .addub (.reg .ra) .sp), ([0b01_1_0001_1111_1110_1], .adduw (.reg .ra) .sp),
       ([0b01_0_0011_0010_0001_1], .mulb (.reg .r1) .r2), ([0b01_1_0011_0000_0101_1], .mulw (.reg .r5) .r0),
       ([0b01_0_0100_0110_0100_1], .ashub (.reg .r4) .r6), ([0b01_1_0100_0001_0100_1], .ashuw (.reg .r4) .r1),
       ([0b01_0_0101_0111_0101_1], .lshb (.reg .r5) .r7), ([0b01_1_0101_0111_0101_1], .lshw (.reg .r5) .r7),
       ([0b01_0_0110_0010_0001_1], .xorb (.reg .r1) .r2), ([0b01_1_0110_0010_0001_1], .xorw (.reg .r1) .r2),
       ([0b01_0_0111_0011_0000_1], .cmpb (.reg .r0) .r3), ([0b01_1_0111_0011_0000_1], .cmpw (.reg .r0) .r3),
       ([0b01_0_1000_1011_0000_1], .andb (.reg .r0) .r11), ([0b01_1_1000_1011_0000_1], .andw (.reg .r0) .r11),
       ([0b01_0_1001_1000_1001_1], .addcb (.reg .r9) .r8), ([0b01_1_1001_0000_0101_1], .addcw (.reg .r5) .r0),
       ([0b01_1_1011_0001_0010_1], .tbit (.reg .r2) .r1), ([0b01_0_1100_0010_0001_1], .movb (.reg .r1) .r2),
       ([0b01_1_1100_0110_0000_1], .movw (.reg .r0) .r6), ([0b01_0_1101_0010_0001_1], .subcb (.reg .r1) .r2),
       ([0b01_1_1101_0010_0001_1], .subcw (.reg .r1) .r2), ([0b01_0_1110_0111_0101_1], .orb (.reg .r5) .r7),
       ([0b01_1_1110_0111_0101_1], .orw (.reg .r5) .r7), ([0b01_0_1111_0001_0000_1], .subb (.reg .r0) .r1),
       ([0b01_1_1111_1000_0111_1], .subw (.reg .r7) .r8) ] : List (List Word × Instr)).all (fun r => isCode r.1 r.2) = true := by
  decide

theorem test_decode_formats_is_im :
    ([ ([0b00_1_1100_0011_10000], .movw (.short (-16)) .r3), ([0b00_1_1100_0011_01111], .movw (.short 15) .r3),
       ([0b00_1_1100_0011_10001, 0xFFF1], .movw (.medium 0xFFF1) .r3), ([0b00_0_1101_0001_10001, 0x0020], .subcb (.medium 0x0020) .r1),
       ([0b00_0_0000_0000_00000], .addb (.short 0) .r0), ([0b00_0_0001_0000_00001], .addub (.short 1) .r0),
       ([0b00_0_0001_0001_00000], .addub (.short 0) .r1), ([0b00_1_0001_0000_00000], .adduw (.short 0) .r0),
       ([0b00_0_0001_0000_10001, 0x0000], .addub (.medium 0) .r0), ([0b00_1_1011_0001_00011], .tbit (.short 3) .r1) ] :
      List (List Word × Instr)).all (fun r => isCode r.1 r.2) = true := by decide

theorem test_decode_format_sp :
    ([ ([0b01_1_0100_0000_1000_0], .movxb .r8 .r0), ([0b01_1_0101_0000_1000_0], .movzb .r8 .r0),
       ([0b01_1_0111_0000_0001_0], .seq .r1), ([0b01_1_0111_0001_0001_0], .sne .r1), ([0b01_1_0111_0010_0001_0], .scs .r1),
       ([0b01_1_0111_0011_0001_0], .scc .r1), ([0b01_1_0111_0100_0001_0], .shi .r1), ([0b01_1_0111_0101_0001_0], .sls .r1),
       ([0b01_1_0111_0110_0001_0], .sgt .r1), ([0b01_1_0111_0111_0001_0], .sle .r1), ([0b01_1_0111_1000_0001_0], .sfs .r1),
       ([0b01_1_0111_1001_0001_0], .sfc .r1), ([0b01_1_0111_1010_0001_0], .slo .r1), ([0b01_1_0111_1011_0001_0], .shs .r1),
       ([0b01_1_0111_1100_0001_0], .slt .r1), ([0b01_1_0111_1101_0001_0], .sge .r1), ([0b01_1_1000_0001_0001_0], .lpr .r1 .psr),
       ([0b01_1_1000_0011_0001_0], .lpr .r1 .intbase), ([0b01_1_1000_1011_0001_0], .lpr .r1 .isp),
       ([0b01_1_1001_0001_0010_0], .spr .psr .r2), ([0b01_1_1001_0011_0010_0], .spr .intbase .r2),
       ([0b01_1_1001_1011_0010_0], .spr .isp .r2), ([0b01_1_1100_1111_1111_0], .retx), ([0b01_1_1101_1111_0101_0], .excp 5),
       ([0b01_1_1110_1110_1111_0], .di), ([0b01_1_1110_1111_1111_0], .ei), ([0b01_1_1111_1111_1111_0], .wait),
       ([0x0200], .nop) ] : List (List Word × Instr)).all (fun r => isCode r.1 r.2) = true := by decide

theorem test_decode_branches :
    ([ ([0b01_0_0000_0000_00100], .beq (.short 4)), ([0b01_0_0000_0001_10000], .bne (.short 16)),
       ([0b01_0_0000_0010_00100], .bcs (.short 4)), ([0b01_0_0000_0011_00100], .bcc (.short 4)),
       ([0b01_0_0000_0100_00100], .bhi (.short 4)), ([0b01_0_0000_0101_00100], .bls (.short 4)),
       ([0b01_0_0000_0110_00100], .bgt (.short 4)), ([0b01_0_0000_0111_00100], .ble (.short 4)),
       ([0b01_0_0000_1000_00100], .bfs (.short 4)), ([0b01_0_0000_1001_00100], .bfc (.short 4)),
       ([0b01_0_1011_1010_01000], .blo (.short (-152))), ([0b01_0_0000_1011_00100], .bhs (.short 4)),
       ([0b01_0_0000_1100_00100], .blt (.short 4)), ([0b01_0_1000_1101_00000], .bge (.short (-256))),
       ([0b01_0_0111_1110_11110], .br (.short 254)), ([0b00_0_1010_1010_1_1110, 0xFF68], .blo (.medium (-152))),
       ([0b00_0_1010_1110_0_1110, 0xFFFE], .br (.medium 0x0FFFE)), ([0b00_0_1010_0000_1_1110, 0x0000], .beq (.medium (-65536))),
       ([0b00_1_1010_1110_0_1110, 0x0F6C], .bal .ra 0x00F6C), ([0b00_1_1010_0011_1_1110, 0xF000], .bal .r3 (-4096)) ] :
      List (List Word × Instr)).all (fun r => isCode r.1 r.2) = true := by decide

theorem test_decode_jumps :
    ([ ([0b01_0_1010_0000_0011_1], .jeq .r3), ([0b01_0_1010_0001_0011_1], .jne .r3), ([0b01_0_1010_0010_0011_1], .jcs .r3),
       ([0b01_0_1010_0011_0011_1], .jcc .r3), ([0b01_0_1010_0100_0011_1], .jhi .r3), ([0b01_0_1010_0101_0011_1], .jls .r3),
       ([0b01_0_1010_0110_0011_1], .jgt .r3), ([0b01_0_1010_0111_0011_1], .jle .r3), ([0b01_0_1010_1000_0011_1], .jfs .r3),
       ([0b01_0_1010_1001_0011_1], .jfc .r3), ([0b01_0_1010_1010_0011_1], .jlo .r3), ([0b01_0_1010_1011_0011_1], .jhs .r3),
       ([0b01_0_1010_1100_0011_1], .jlt .r3), ([0b01_0_1010_1101_0011_1], .jge .r3), ([0b01_0_1010_1110_1110_1], .jump .ra),
       ([0b01_1_1010_1110_0011_1], .jal .ra .r3) ] : List (List Word × Instr)).all (fun r => isCode r.1 r.2) = true := by decide

theorem test_decode_loads_and_stores :
    ([ ([0b10_0_0100_0111_0101_1], .loadb (.relShort .r5 9) .r7), ([0b10_1_1111_0110_0101_0], .loadw (.relShort .r5 30) .r6),
       ([0b10_1_1000_0110_0101_1, 0x0011], .loadw (.relMedium .r5 0x00011) .r6),
       ([0b10_0_1011_0110_0101_1, 0xFFFE], .loadb (.relMedium .r5 0x3FFFE) .r6),
       ([0b10_1_1110_0111_0100_1, 0x0000], .loadw (.farRel .r4 0x20000) .r7),
       ([0b10_1_1100_1001_1111_1, 0x0278], .loadw (.abs 0x00278) .r9), ([0b10_0_1111_0110_1111_1, 0xFFFF], .loadb (.abs 0x3FFFF) .r6),
       ([0b11_1_0100_0011_0101_1], .storw .r3 (.relShort .r5 9)), ([0b11_0_0111_0111_0101_1], .storb .r7 (.relShort .r5 15)),
       ([0b11_0_1001_0010_1111_1, 0x1234], .storb .r2 (.relMedium .sp 0x11234)),
       ([0b11_1_1100_0000_1110_1, 0x0000], .storw .r0 (.farRel .ra 0x00000)),
       ([0b11_1_1100_0000_1111_1, 0x9120], .storw .r0 (.abs 0x09120)) ] :
      List (List Word × Instr)).all (fun r => isCode r.1 r.2) = true := by decide

/-- One word of each row of Table A-2 (`30_encoding.md` R117). -/
theorem test_decode_und :
    ([0b00_0_1011_0000_0000_0, 0b00_0_1010_0000_0000_1, 0b00_1_1010_1111_1111_1, 0b00_0_0010_0000_1000_1, 0b00_1_0010_0000_0000_0,
      0b01_0_0010_0000_0000_1, 0b01_1_0110_0000_0000_0, 0b01_1_0000_0000_0000_0, 0b01_1_0011_0000_0000_0,
      0b01_1_1010_0000_0000_0, 0b01_1_1011_0000_0000_0, 0b01_0_1011_0000_0000_1] : List Word).all
      (fun w => isCode [w] (.und w)) = true := by decide

/-- One word of each row of `30_encoding.md` R119; the medium Bcond with condition 1111 has a second word (R91). -/
theorem test_decode_unspecified :
    isCode [0b00_0_1010_1111_0_1110, 0x1234] (.unspecified (.two 0x15EE 0x1234)) = true ∧
    ([0b00_0_1010_0000_0000_0, 0b01_0_0000_1111_0000_0, 0b01_0_1010_1111_0000_1, 0b01_1_0111_1110_0000_0,
      0b01_1_1000_0101_0000_0, 0b01_1_1001_0000_0000_0, 0b01_1_1100_0000_0000_0, 0b01_1_1101_0000_0101_0,
      0b01_1_1110_0000_0000_0, 0b01_1_1111_0000_0000_0] : List Word).all (fun w => isCode [w] (.unspecified (.one w))) = true := by decide

/-- Bytes in memory order, low byte of a word first; what follows the instruction is left over. -/
theorem test_decode_byte_order :
    (match decode [0x43, 0x40, 0xAA] with | .ok r => r == (.addb (.reg .r1) .r2, [0xAA]) | .error _ => false) = true ∧
      (match decode [0x5E, 0x15, 0x68, 0xFF] with | .ok r => r == (.blo (.medium (-152)), []) | .error _ => false) = true := by
  decide

/-- Bytes that end too early are rejected by name. -/
theorem test_decode_short_input :
    (match decode [0x43] with | .ok _ => false | .error e => e == .noFirstWord) = true ∧
      (match decode [0x5E, 0x15, 0x68] with | .ok _ => false | .error e => e == .noSecondWord) = true := by decide

/-- The host's numbering: the second word in bits 31..16. -/
theorem test_decodeTableWord :
    decodeTableWord 16 0x4043 = some (.addb (.reg .r1) .r2) ∧ decodeTableWord 32 0x0278B93F = some (.loadw (.abs 0x00278) .r9) ∧
      decodeTableWord 16 0xB93F = some (.loadw (.abs 0x00000) .r9) := by decide

/-! ### Ill-formed terms, one for each check of `WellFormed` -/

theorem test_illformed_short_immediate : (Instr.movw (.short 0b10001) .r3).wellFormed = false := by decide
theorem test_illformed_short_displacement : (Instr.beq (.short 3)).wellFormed = false := by decide
theorem test_illformed_medium_displacement : (Instr.br (.medium 0x00011)).wellFormed = false := by decide
theorem test_illformed_bal_displacement : (Instr.bal .ra 0x00011).wellFormed = false := by decide
theorem test_illformed_relShort_odd : (Instr.loadw (.relShort .r5 17) .r6).wellFormed = false := by decide
theorem test_illformed_farRel_sp : (Instr.storb .r0 (.farRel .sp 0)).wellFormed = false := by decide
theorem test_illformed_addub_is_nop : (Instr.addub (.short 0) .r0).wellFormed = false := by decide
theorem test_illformed_und_defined : (Instr.und 0x4043).wellFormed = false := by decide
theorem test_illformed_unspecified_defined : (Instr.unspecified (.one 0x0400)).wellFormed = false := by decide
theorem test_illformed_unspecified_length :
    (Instr.unspecified (.one 0x15EE)).wellFormed = false ∧ (Instr.unspecified (.two 0x15C0 0)).wellFormed = false := by decide

/-! ### Single steps -/

/-- `MOVB R1,R2`, keeps the high byte. -/
theorem test_movb :
    runs (start 0x01000 [0x5843] |> gpr .r1 0x12AB |> gpr .r2 0x55CC |> psr { noFlags with c := true, z := true })
      (fun t => t.reg .r2 == 0x55AB && t.psr == { noFlags with c := true, z := true } && t.pc == 0x01002) = true := by decide

/-- `MOVB $0x1234,R3`, the upper byte of the immediate is ignored. -/
theorem test_movb_medium :
    runs (start 0x01000 [0x1871, 0x1234] |> gpr .r3 0xAA00)
      (fun t => t.reg .r3 == 0xAA34 && t.psr == noFlags && t.pc == 0x01004) = true := by decide

/-- `MOVW $-16,R3`, short immediate sign-extended. -/
theorem test_movw :
    runs (start 0x01000 [0x3870] |> gpr .r3 0x1200)
      (fun t => t.reg .r3 == 0xFFF0 && t.psr == noFlags && t.pc == 0x01002) = true := by decide

/-- `MOVW $-15,R3`, -15 needs the medium form. -/
theorem test_movw_medium :
    runs (start 0x01000 [0x3871, 0xFFF1] |> gpr .r3 0x1200)
      (fun t => t.reg .r3 == 0xFFF1 && t.psr == noFlags && t.pc == 0x01004) = true := by decide

/-- `MOVXB R8,R0`. -/
theorem test_movxb :
    runs (start 0x01000 [0x6810] |> gpr .r8 0x12F0 |> gpr .r0 0x5555)
      (fun t => t.reg .r0 == 0xFFF0 && t.psr == noFlags && t.pc == 0x01002) = true := by decide

/-- `MOVXB R8,R0`. -/
theorem test_movxb_positive :
    runs (start 0x01000 [0x6810] |> gpr .r8 0xFF70 |> gpr .r0 0x5555)
      (fun t => t.reg .r0 == 0x0070 && t.psr == noFlags && t.pc == 0x01002) = true := by decide

/-- `MOVZB R0,R0`, source and destination the same. -/
theorem test_movzb :
    runs (start 0x01000 [0x6A00] |> gpr .r0 0xABCD)
      (fun t => t.reg .r0 == 0x00CD && t.psr == noFlags && t.pc == 0x01002) = true := by decide

/-- `ADDB R0,R3`, C set, the comparison flags kept. -/
theorem test_addb :
    runs (start 0x01000 [0x4061] |> gpr .r0 0x0001 |> gpr .r3 0x00FF |> psr { noFlags with l := true, z := true, n := true })
      (fun t => t.reg .r3 == 0x0000 && t.psr == { noFlags with c := true, l := true, z := true, n := true }
          && t.pc == 0x01002) = true := by decide

/-- `ADDB R0,R3`. -/
theorem test_addb_overflow :
    runs (start 0x01000 [0x4061] |> gpr .r0 0x0070 |> gpr .r3 0xAA10)
      (fun t => t.reg .r3 == 0xAA80 && t.psr == { noFlags with f := true } && t.pc == 0x01002) = true := by decide

/-- `ADDW R1,R2`, carry and overflow. -/
theorem test_addw :
    runs (start 0x01000 [0x6043] |> gpr .r1 0x8000 |> gpr .r2 0x8000)
      (fun t => t.reg .r2 == 0x0000 && t.psr == { noFlags with c := true, f := true } && t.pc == 0x01002) = true := by decide

/-- `ADDW $-1,R2`, negative immediate. -/
theorem test_addw_short :
    runs (start 0x01000 [0x205F] |> gpr .r2 0x0005 |> psr { noFlags with c := true })
      (fun t => t.reg .r2 == 0x0004 && t.psr == { noFlags with c := true } && t.pc == 0x01002) = true := by decide

/-- `ADDUB R0,R3`. -/
theorem test_addub :
    runs (start 0x01000 [0x4261] |> gpr .r0 0x00FF |> gpr .r3 0x1201 |> psr { noFlags with c := true, f := true })
      (fun t => t.reg .r3 == 0x1200 && t.psr == { noFlags with c := true, f := true } && t.pc == 0x01002) = true := by decide

/-- `ADDUW $2,SP`. -/
theorem test_adduw :
    runs (start 0x01000 [0x23E2] |> gpr .sp 0x6FFE)
      (fun t => t.reg .sp == 0x7000 && t.psr == noFlags && t.pc == 0x01002) = true := by decide

/-- `ADDCB $32,R0`, carry-in makes the carry. -/
theorem test_addcb :
    runs (start 0x01000 [0x1211, 0x0020] |> gpr .r0 0x34DF |> psr { noFlags with c := true })
      (fun t => t.reg .r0 == 0x3400 && t.psr == { noFlags with c := true } && t.pc == 0x01004) = true := by decide

/-- `ADDCW R5,R0`, carry-in makes the overflow. -/
theorem test_addcw :
    runs (start 0x01000 [0x720B] |> gpr .r5 0x7FFF |> gpr .r0 0x0000 |> psr { noFlags with c := true })
      (fun t => t.reg .r0 == 0x8000 && t.psr == { noFlags with f := true } && t.pc == 0x01002) = true := by decide

/-- `ADDCW R5,R0`. -/
theorem test_addcw_all_ones :
    runs (start 0x01000 [0x720B] |> gpr .r5 0xFFFF |> gpr .r0 0xFFFF |> psr { noFlags with c := true })
      (fun t => t.psr == { noFlags with c := true } && t.pc == 0x01002) = true := by decide

/-- `SUBB R0,R1`, borrow. -/
theorem test_subb :
    runs (start 0x01000 [0x5E21] |> gpr .r0 0x0001 |> gpr .r1 0x7700)
      (fun t => t.reg .r1 == 0x77FF && t.psr == { noFlags with c := true } && t.pc == 0x01002) = true := by decide

/-- `SUBB R0,R1`. -/
theorem test_subb_clears :
    runs (start 0x01000 [0x5E21] |> gpr .r0 0x0005 |> gpr .r1 0x0005 |> psr { noFlags with c := true, f := true })
      (fun t => t.reg .r1 == 0x0000 && t.psr == noFlags && t.pc == 0x01002) = true := by decide

/-- `SUBW R7,R8`, borrow and overflow. -/
theorem test_subw :
    runs (start 0x01000 [0x7F0F] |> gpr .r7 0x8000 |> gpr .r8 0x7FFF)
      (fun t => t.reg .r8 == 0xFFFF && t.psr == { noFlags with c := true, f := true } && t.pc == 0x01002) = true := by decide

/-- `SUBW R7,R7`. -/
theorem test_subw_same :
    runs (start 0x01000 [0x7EEF] |> gpr .r7 0xABCD)
      (fun t => t.reg .r7 == 0x0000 && t.psr == noFlags && t.pc == 0x01002) = true := by decide

/-- `SUBCB $32,R1`. -/
theorem test_subcb :
    runs (start 0x01000 [0x1A31, 0x0020] |> gpr .r1 0x5520 |> psr { noFlags with c := true })
      (fun t => t.reg .r1 == 0x55FF && t.psr == { noFlags with c := true } && t.pc == 0x01004) = true := by decide

/-- `SUBCB $32,R1`. -/
theorem test_subcb_no_borrow_in :
    runs (start 0x01000 [0x1A31, 0x0020] |> gpr .r1 0x5520)
      (fun t => t.reg .r1 == 0x5500 && t.psr == noFlags && t.pc == 0x01004) = true := by decide

/-- `SUBCW R1,R2`, b + c is 2^n. -/
theorem test_subcw :
    runs (start 0x01000 [0x7A43] |> gpr .r1 0xFFFF |> gpr .r2 0x0000 |> psr { noFlags with c := true })
      (fun t => t.psr == { noFlags with c := true } && t.pc == 0x01002) = true := by decide

/-- `SUBCW R1,R2`. -/
theorem test_subcw_overflow :
    runs (start 0x01000 [0x7A43] |> gpr .r1 0x7FFF |> gpr .r2 0x8000 |> psr { noFlags with c := true })
      (fun t => t.reg .r2 == 0x0000 && t.psr == { noFlags with f := true } && t.pc == 0x01002) = true := by decide

/-- `MULB $-2,R2`, keeps the high byte. -/
theorem test_mulb :
    runs (start 0x01000 [0x065E] |> gpr .r2 0x7703)
      (fun t => t.reg .r2 == 0x77FA && t.psr == noFlags && t.pc == 0x01002) = true := by decide

/-- `MULW R5,R0`, signed product. -/
theorem test_mulw :
    runs (start 0x01000 [0x660B] |> gpr .r5 0xFFFE |> gpr .r0 0x0003)
      (fun t => t.reg .r0 == 0xFFFA && t.psr == noFlags && t.pc == 0x01002) = true := by decide

/-- `MULW R3,R3`. -/
theorem test_mulw_same :
    runs (start 0x01000 [0x6667] |> gpr .r3 0x00FF)
      (fun t => t.reg .r3 == 0xFE01 && t.psr == noFlags && t.pc == 0x01002) = true := by decide

/-- `CMPB R0,R3`, unsigned greater. -/
theorem test_cmpb :
    runs (start 0x01000 [0x4E61] |> gpr .r0 0x1280 |> gpr .r3 0x347F)
      (fun t => t.psr == { noFlags with l := true } && t.pc == 0x01002) = true := by decide

/-- `CMPB R0,R3`, clears L and N. -/
theorem test_cmpb_equal :
    runs (start 0x01000 [0x4E61] |> gpr .r0 0x1255 |> gpr .r3 0x3455
        |> psr { noFlags with c := true, l := true, f := true, n := true })
      (fun t => t.psr == { noFlags with c := true, f := true, z := true } && t.pc == 0x01002) = true := by decide

/-- `CMPW R0,R3`, signed greater. -/
theorem test_cmpw :
    runs (start 0x01000 [0x6E61] |> gpr .r0 0x7FFF |> gpr .r3 0x8000)
      (fun t => t.psr == { noFlags with n := true } && t.pc == 0x01002) = true := by decide

/-- `CMPW $-1,R1`, the immediate is the first operand. -/
theorem test_cmpw_immediate :
    runs (start 0x01000 [0x2E3F] |> gpr .r1 0x0001)
      (fun t => t.psr == { noFlags with l := true } && t.pc == 0x01002) = true := by decide

/-- `ANDB $-2,R1`, the high byte is kept. -/
theorem test_andb :
    runs (start 0x01000 [0x103E] |> gpr .r1 0xFFFF)
      (fun t => t.reg .r1 == 0xFFFE && t.psr == noFlags && t.pc == 0x01002) = true := by decide

/-- `ANDW $-2,R1`. -/
theorem test_andw :
    runs (start 0x01000 [0x303E] |> gpr .r1 0xFFFF)
      (fun t => t.reg .r1 == 0xFFFE && t.psr == noFlags && t.pc == 0x01002) = true := by decide

/-- `ORB R5,R7`. -/
theorem test_orb :
    runs (start 0x01000 [0x5CEB] |> gpr .r5 0xFF0F |> gpr .r7 0x1230)
      (fun t => t.reg .r7 == 0x123F && t.psr == noFlags && t.pc == 0x01002) = true := by decide

/-- `ORW $-16,R7`. -/
theorem test_orw :
    runs (start 0x01000 [0x3CF0] |> gpr .r7 0x0005)
      (fun t => t.reg .r7 == 0xFFF5 && t.psr == noFlags && t.pc == 0x01002) = true := by decide

/-- `XORB R1,R2`. -/
theorem test_xorb :
    runs (start 0x01000 [0x4C43] |> gpr .r1 0x00FF |> gpr .r2 0x12A5)
      (fun t => t.reg .r2 == 0x125A && t.psr == noFlags && t.pc == 0x01002) = true := by decide

/-- `XORW R2,R2`. -/
theorem test_xorw :
    runs (start 0x01000 [0x6C45] |> gpr .r2 0x12A5 |> psr { noFlags with z := true })
      (fun t => t.reg .r2 == 0x0000 && t.psr == { noFlags with z := true } && t.pc == 0x01002) = true := by decide

/-- `ASHUB $-7,R5`. -/
theorem test_ashub :
    runs (start 0x01000 [0x08B9] |> gpr .r5 0xAA80)
      (fun t => t.reg .r5 == 0xAAFF && t.psr == noFlags && t.pc == 0x01002) = true := by decide

/-- `ASHUB R4,R6`, the count is the low byte. -/
theorem test_ashub_left :
    runs (start 0x01000 [0x48C9] |> gpr .r4 0xFF03 |> gpr .r6 0x55E1)
      (fun t => t.reg .r6 == 0x5508 && t.psr == noFlags && t.pc == 0x01002) = true := by decide

/-- `ASHUW $-15,R1`, count -15 by the medium form. -/
theorem test_ashuw :
    runs (start 0x01000 [0x2831, 0xFFF1] |> gpr .r1 0x8000)
      (fun t => t.reg .r1 == 0xFFFF && t.psr == noFlags && t.pc == 0x01004) = true := by decide

/-- `ASHUW $15,R1`. -/
theorem test_ashuw_left :
    runs (start 0x01000 [0x282F] |> gpr .r1 0x0001)
      (fun t => t.reg .r1 == 0x8000 && t.psr == noFlags && t.pc == 0x01002) = true := by decide

/-- `LSHB $-7,R1`. -/
theorem test_lshb :
    runs (start 0x01000 [0x0A39] |> gpr .r1 0x7780)
      (fun t => t.reg .r1 == 0x7701 && t.psr == noFlags && t.pc == 0x01002) = true := by decide

/-- `LSHB R5,R7`. -/
theorem test_lshb_register :
    runs (start 0x01000 [0x4AEB] |> gpr .r5 0x00FF |> gpr .r7 0x3381)
      (fun t => t.reg .r7 == 0x3340 && t.psr == noFlags && t.pc == 0x01002) = true := by decide

/-- `LSHW R5,R7`, the W form takes a byte count. -/
theorem test_lshw :
    runs (start 0x01000 [0x6AEB] |> gpr .r5 0xAAF8 |> gpr .r7 0xFF00)
      (fun t => t.reg .r7 == 0x00FF && t.psr == noFlags && t.pc == 0x01002) = true := by decide

/-- `LSHW $15,R1`. -/
theorem test_lshw_left :
    runs (start 0x01000 [0x2A2F] |> gpr .r1 0xFFFF)
      (fun t => t.reg .r1 == 0x8000 && t.psr == noFlags && t.pc == 0x01002) = true := by decide

/-- `TBIT $15,R1`. -/
theorem test_tbit :
    runs (start 0x01000 [0x362F] |> gpr .r1 0x8000)
      (fun t => t.psr == { noFlags with f := true } && t.pc == 0x01002) = true := by decide

/-- `TBIT R1,R1`. -/
theorem test_tbit_clear :
    runs (start 0x01000 [0x7623] |> gpr .r1 0x0002)
      (fun t => t.psr == noFlags && t.pc == 0x01002) = true := by decide

/-- `LPR R1,PSR`. -/
theorem test_lpr_psr :
    runs (start 0x01000 [0x7022] |> gpr .r1 0xFFFF |> psr { noFlags with e := true })
      (fun t => t.psr == { noFlags with c := true, t := true, l := true, f := true, z := true, n := true, e := true, p := true, i := true }
          && t.pc == 0x01002) = true := by decide

/-- `LPR R0,ISP`, bit 0 is cleared. -/
theorem test_lpr_isp :
    runs (start 0x01000 [0x7160] |> gpr .r0 0xFFFF |> isp 0x00000)
      (fun t => t.isp == 0x0FFFE && t.psr == noFlags && t.pc == 0x01002) = true := by decide

/-- `LPR R0,INTBASE`. -/
theorem test_lpr_intbase :
    runs (start 0x01000 [0x7060] |> gpr .r0 0x0201 |> intbase 0x00000)
      (fun t => t.intbase == 0x00200 && t.psr == noFlags && t.pc == 0x01002) = true := by decide

/-- `SPR INTBASE,R0`. -/
theorem test_spr_intbase :
    runs (start 0x01000 [0x7260] |> gpr .r0 0xFFFF |> intbase 0x00200)
      (fun t => t.reg .r0 == 0x0200 && t.psr == noFlags && t.pc == 0x01002) = true := by decide

/-- `SPR ISP,R2`. -/
theorem test_spr_isp :
    runs (start 0x01000 [0x7364] |> gpr .r2 0xFFFF |> isp 0x07FFC)
      (fun t => t.reg .r2 == 0x7FFC && t.psr == noFlags && t.pc == 0x01002) = true := by decide

/-- `DI`. -/
theorem test_di :
    runs (start 0x01000 [0x7DDE] |> psr { noFlags with e := true, i := true })
      (fun t => t.psr == { noFlags with i := true } && t.pc == 0x01002) = true := by decide

/-- `EI`. -/
theorem test_ei :
    runs (start 0x01000 [0x7DFE] |> psr { noFlags with i := true })
      (fun t => t.psr == { noFlags with e := true, i := true } && t.pc == 0x01002) = true := by decide

/-- `BR *-256`, -256. -/
theorem test_br_short :
    runs (start 0x01000 [0x51C0])
      (fun t => t.psr == noFlags && t.pc == 0x00F00) = true := by decide

/-- `BR *+0x1000`, wraps. -/
theorem test_br_medium :
    runs (start 0x1F800 [0x15CE, 0x1000])
      (fun t => t.psr == noFlags && t.pc == 0x00800) = true := by decide

/-- `BAL RA,*-0x1000`. -/
theorem test_bal :
    runs (start 0x1F000 [0x35DE, 0xF000] |> gpr .ra 0x0000)
      (fun t => t.reg .ra == 0xF802 && t.psr == noFlags && t.pc == 0x1E000) = true := by decide

/-- `BAL RA,*+0x20`. -/
theorem test_bal_wraps :
    runs (start 0x1FFFC [0x35CE, 0x0020] |> gpr .ra 0x1234)
      (fun t => t.reg .ra == 0x0000 && t.psr == noFlags && t.pc == 0x0001C) = true := by decide

/-- `JUMP R3`. -/
theorem test_jump :
    runs (start 0x01000 [0x55C7] |> gpr .r3 0xFFFF)
      (fun t => t.psr == noFlags && t.pc == 0x1FFFE) = true := by decide

/-- `JAL R3,R3`, link and target the same. -/
theorem test_jal :
    runs (start 0x01000 [0x7467] |> gpr .r3 0x2000)
      (fun t => t.reg .r3 == 0x0801 && t.psr == noFlags && t.pc == 0x04000) = true := by decide

/-- `JAL RA,R3`. -/
theorem test_jal_wraps :
    runs (start 0x1FFFE [0x75C7] |> gpr .r3 0x0010 |> gpr .ra 0x1234)
      (fun t => t.reg .ra == 0x0000 && t.psr == noFlags && t.pc == 0x00020) = true := by decide

/-- `RETX`. -/
theorem test_retx :
    runs (start 0x01000 [0x79FE] |> isp 0x07FFC |> put 0x07FFC [0x01, 0x08] |> put 0x07FFE [0x41, 0x0A])
      (fun t => t.isp == 0x08000 && t.psr == { noFlags with c := true, z := true, e := true, i := true }
          && t.pc == 0x01002) = true := by decide

/-- `RETX`. -/
theorem test_retx_all :
    runs (start 0x01000 [0x79FE] |> isp 0x07FFC |> put 0x07FFC [0xFF, 0xFF] |> put 0x07FFE [0xFF, 0xFF]
        |> psr { noFlags with e := true, i := true })
      (fun t => t.isp == 0x08000
          && t.psr == { noFlags with c := true, t := true, l := true, f := true, z := true, n := true, e := true, p := true, i := true }
          && t.pc == 0x1FFFE) = true := by decide

/-- `LOADB 2(R5),R6`, wraps 2^18. -/
theorem test_loadb :
    runs (start 0x01000 [0x96CB, 0x0002] |> gpr .r5 0xFFFF |> gpr .r6 0xFF00 |> put 0x00001 [0x5A])
      (fun t => t.reg .r6 == 0xFF5A && t.psr == noFlags && t.pc == 0x01004) = true := by decide

/-- `LOADB 0x3FFFF,R6`, the last byte. -/
theorem test_loadb_last :
    runs (start 0x01000 [0x9EDF, 0xFFFF] |> gpr .r6 0xFFFF |> put 0x3FFFF [0x77])
      (fun t => t.reg .r6 == 0xFF77 && t.psr == noFlags && t.pc == 0x01004) = true := by decide

/-- `LOADW 9(R5),R6`, odd address. -/
theorem test_loadw :
    runs (start 0x01000 [0xA8CB] |> gpr .r5 0x2000 |> gpr .r6 0x0000 |> put 0x02009 [0x34] |> put 0x0200A [0x12])
      (fun t => t.reg .r6 == 0x1234 && t.psr == noFlags && t.pc == 0x01002) = true := by decide

/-- `LOADW 0x20000(R5,R4),R7`. -/
theorem test_loadw_far :
    runs (start 0x01000 [0xBCE9, 0x0000] |> gpr .r4 0x0002 |> gpr .r5 0xFFFD |> gpr .r7 0x0000 |> put 0x30002 [0xEF]
        |> put 0x30003 [0xBE])
      (fun t => t.reg .r7 == 0xBEEF && t.psr == noFlags && t.pc == 0x01004) = true := by decide

/-- `STORB R7,0(R5)`, one byte. -/
theorem test_storb :
    runs (start 0x01000 [0xC0EA] |> gpr .r5 0x2000 |> gpr .r7 0x12CD |> put 0x02000 [0xFF] |> put 0x02001 [0xFF])
      (fun t => t.byteAt 0x02000 == 0xCD && t.psr == noFlags && t.pc == 0x01002) = true := by decide

/-- `STORB R7,0x20000(R5,R4)`. -/
theorem test_storb_far :
    runs (start 0x01000 [0xDCE9, 0x0000] |> gpr .r4 0x0002 |> gpr .r5 0x0001 |> gpr .r7 0x12CD)
      (fun t => t.byteAt 0x30002 == 0xCD && t.psr == noFlags && t.pc == 0x01004) = true := by decide

/-- `STORW R3,9(R5)`, odd address. -/
theorem test_storw :
    runs (start 0x01000 [0xE86B] |> gpr .r3 0xBEEF |> gpr .r5 0x2000)
      (fun t => t.byteAt 0x02009 == 0xEF && t.byteAt 0x0200A == 0xBE && t.psr == noFlags
          && t.pc == 0x01002) = true := by decide

/-- `STORW R0,0(SP,RA)`, the pair SP, RA. -/
theorem test_storw_pair_of_ra :
    runs (start 0x01000 [0xF81D, 0x0000] |> gpr .r0 0x1111 |> gpr .ra 0x4000 |> gpr .sp 0x0001)
      (fun t => t.byteAt 0x14000 == 0x11 && t.byteAt 0x14001 == 0x11 && t.psr == noFlags
          && t.pc == 0x01004) = true := by decide

/-- `WAIT`. -/
theorem test_wait :
    runs (start 0x01000 [0x7FFE] |> psr { noFlags with e := true })
      (fun t => t.psr == { noFlags with e := true } && t.pc == 0x01002 && t.waiting) = true := by decide

/-- `NOP`. -/
theorem test_nop :
    runs (start 0x01000 [0x0200] |> gpr .r0 0xABCD |> psr { noFlags with e := true, i := true })
      (fun t => t.psr == { noFlags with e := true, i := true } && t.pc == 0x01002) = true := by decide

/-- Each condition code with a PSR on which it holds and one on which it does not (`47_jumps.md` R215). -/
def conditions : List (Word × Psr × Psr) :=
  [ (0, { noFlags with z := true }, noFlags), (1, noFlags, { noFlags with z := true }),
    (2, { noFlags with c := true }, noFlags), (3, noFlags, { noFlags with c := true }),
    (4, { noFlags with l := true }, noFlags), (5, noFlags, { noFlags with l := true }),
    (6, { noFlags with n := true }, noFlags), (7, noFlags, { noFlags with n := true }),
    (8, { noFlags with f := true }, noFlags), (9, noFlags, { noFlags with f := true }),
    (10, noFlags, { noFlags with l := true }), (10, { noFlags with n := true }, { noFlags with z := true }),
    (11, { noFlags with l := true }, { noFlags with n := true }), (11, { noFlags with z := true }, noFlags),
    (12, noFlags, { noFlags with n := true }), (12, { noFlags with l := true }, { noFlags with z := true }),
    (13, { noFlags with n := true }, { noFlags with l := true }), (13, { noFlags with z := true }, noFlags) ]

/-- Scond, all fourteen (`43_logical.md` R178). -/
theorem test_scond :
    conditions.all (fun c =>
      runs (start 0x01000 [0x6E00 + (c.1 <<< 5)] |> gpr .r0 0xFFFF |> psr c.2.1) (fun t => t.reg .r0 == 1 && t.psr == c.2.1) &&
        runs (start 0x01000 [0x6E00 + (c.1 <<< 5)] |> gpr .r0 0xFFFF |> psr c.2.2)
          (fun t => t.reg .r0 == 0 && t.psr == c.2.2)) = true := by decide

/-- Bcond, all fourteen, in the short and in the medium form (`47_jumps.md` R217). -/
theorem test_bcond :
    conditions.all (fun c =>
      runs (start 0x01000 [0x4004 + (c.1 <<< 5)] |> psr c.2.1) (fun t => t.pc == 0x01004) &&
        runs (start 0x01000 [0x4004 + (c.1 <<< 5)] |> psr c.2.2) (fun t => t.pc == 0x01002) &&
        runs (start 0x01000 [0x141E + (c.1 <<< 5), 0xFF68] |> psr c.2.1) (fun t => t.pc == 0x00F68) &&
        runs (start 0x01000 [0x141E + (c.1 <<< 5), 0xFF68] |> psr c.2.2) (fun t => t.pc == 0x01004)) = true := by decide

/-- Jcond, all fourteen (`47_jumps.md` R231). -/
theorem test_jcond :
    conditions.all (fun c =>
      runs (start 0x01000 [0x5407 + (c.1 <<< 5)] |> gpr .r3 0x2000 |> psr c.2.1) (fun t => t.pc == 0x04000) &&
        runs (start 0x01000 [0x5407 + (c.1 <<< 5)] |> gpr .r3 0x2000 |> psr c.2.2) (fun t => t.pc == 0x01002)) = true := by decide

/-- SPR PSR: the fields of the image, whatever bits 15..12 are (`46_procreg.md` R209). -/
theorem test_spr_psr :
    ∀ r : BitVec 4,
      (({ noFlags with c := true, z := true, e := true, i := true } : Psr).image r).extractLsb' 0 12 = 0xA41 := by decide

/-- A dispatch table at 00200 hex with the entries of traps and of vector 16, an interrupt stack at 08000 hex. -/
def tableT (s : State) : State :=
  s |> isp 0x08000 |> intbase 0x00200 |> put 0x00202 [0x10, 0x08] |> put 0x0020A [0x50, 0x08, 0x60, 0x08, 0x70, 0x08, 0x80, 0x08]
    |> put 0x00214 [0xA0, 0x08] |> put 0x0021E [0xF0, 0x08] |> put 0x00220 [0x00, 0x09]

/-- EXCP: each defined vector code, and two that name UND (`47_jumps.md` R230). -/
theorem test_excp :
    ([(0x7BEA, 0x010A0), (0x7BEC, 0x010C0), (0x7BEE, 0x010E0), (0x7BF0, 0x01100), (0x7BF4, 0x01140), (0x7BF2, 0x01140),
      (0x7BE0, 0x01140)] : List (Word × Addr)).all (fun c =>
      runs (tableT (start 0x01000 [c.1]) |> psr { noFlags with t := true, e := true, i := true })
        (fun t => t.isp == 0x07FFC && t.byteAt 0x07FFC == 0x00 && t.byteAt 0x07FFD == 0x08 && t.pc == c.2 &&
          t.psr == { noFlags with e := true, i := true } && t.bus == [])) = true := by decide

/-- The words of Table A-2 take the UND trap (`30_encoding.md` R117). -/
theorem test_und :
    ([0x1600, 0x5601, 0x1401, 0x0400, 0x4401, 0x6C00, 0x6000, 0x7400] : List Word).all (fun w =>
      runs (tableT (start 0x01000 [w]))
        (fun t => t.isp == 0x07FFC && t.byteAt 0x07FFD == 0x08 && t.pc == 0x01140)) = true := by decide

/-- A word of R119 is refused. -/
theorem test_unspecified : refuses (start 0x01000 [0x15C0]) .unspecifiedEncoding = true := by decide

/-- Interrupts: NMI wins, a maskable one needs E and I, ISE comes last; the acknowledge cycles (`60_exceptions.md` R301). -/
theorem test_interrupts :
    runs (tableT (start 0x01000 [0x0200]) |> psr { noFlags with e := true, i := true, t := true } |>
        presents { nmiRequest with irq := true, ise := true, icuByte := 16 })
      (fun t => t.pc == 0x01020 && t.psr == { noFlags with e := true } && t.bus == [.acknowledge 0x0FF00]) = true ∧
    runs (tableT (start 0x01000 [0x0200]) |> psr { noFlags with e := true, i := true, p := true } |>
        presents { irqRequest 16 with ise := true })
      (fun t => t.pc == 0x01200 && t.psr == { noFlags with e := true } && t.bus == [.acknowledge 0x0FE00]) = true ∧
    runs (tableT (start 0x01000 [0x0200]) |> psr { noFlags with i := true, p := true } |>
        presents { irqRequest 16 with ise := true })
      (fun t => t.pc == 0x011E0 && t.psr == noFlags && t.bus == [.acknowledge 0x0FC00]) = true := by decide

/-- WAIT lasts until an interrupt, which saves the address after the WAIT (`49_misc.md` R268). -/
theorem test_waiting :
    runs { tableT (start 0x01002 [0x0200]) with waiting := true } (fun t => t.waiting && t.pc == 0x01002) = true ∧
    runs ({ tableT (start 0x01002 [0x0200]) with waiting := true } |> presents nmiRequest)
      (fun t => !t.waiting && t.pc == 0x01020 && t.byteAt 0x07FFC == 0x01) = true := by decide

/-- A reset: R0 keeps the old PC, the PSR has E only (`70_reset_and_hazards.md` R341). -/
theorem test_reset_request :
    runs (start 0x1FFFE [0x0200] |> presents { resetRequest with nmi := true })
      (fun t => t.reg .r0 == 0xFFFF && t.pc == 0 && t.psr == { noFlags with e := true }) = true := by decide

/-- A shift and a bit test out of range complete, and leave the rest alone (`44_shifts.md` R193, `45_bits.md` R201). -/
theorem test_out_of_range :
    runs (start 0x01000 [0x08A8] |> gpr .r5 0xAA81) (fun t => t.pc == 0x01002 && t.psr == noFlags && t.reg .r4 == 0) = true ∧
    runs (start 0x01000 [0x363F] |> gpr .r1 0xFFFF) (fun t => t.pc == 0x01002 && t.reg .r1 == 0xFFFF) = true := by decide

/-- The core uses whatever vector byte it reads: with 1 it goes where the NMI's table entry says (D16; log 16). -/
theorem test_any_vector_byte :
    runs (tableT (start 0x01000 [0x0200]) |> psr { noFlags with e := true, i := true } |> presents (irqRequest 1))
      (fun t => t.pc == 0x01020 && t.psr == { noFlags with e := true } && t.bus == [.acknowledge 0x0FE00]) = true := by decide

/-- Where accesses stop: the last byte, the reserved range, the interrupt stack's bounds (D8, D10, D15), and the table entry of
a vector byte in the reserved range (D16). -/
theorem test_stops :
    refuses (start 0x01000 [0xBEDF, 0xFFFF]) .beyondAddressSpace = true ∧
    refuses (start 0x01000 [0xB81F, 0xFE00]) .reservedRange = true ∧
    refuses (tableT (start 0x01000 [0x7BEA]) |> isp 0x00002) .interruptStackBounds = true ∧
    refuses (start 0x01000 [0x79FE] |> isp 0x0FFFE) .interruptStackBounds = true ∧
    refuses ({ start 0x01000 [0x0200] with intbase := 0x0FA02 } |> psr { noFlags with e := true, i := true } |>
      presents (irqRequest 255)) .reservedRange = true ∧
    refuses (start 0x1FFFE [0x3911]) .secondWordOutsideProgram = true := by decide

/-- A device at 03000 hex, four bytes, of which the sample lists two, and RAM that nothing is mapped over elsewhere. -/
def withDevice (s : State) : State :=
  { s with memMap := [⟨0x03000, 4, .device⟩] } |> presents { Sample.none with devices := [(0x03000, 0x34), (0x03001, 0x12)] }

/-- A load from a device gives what the sample lists, and the device sees the read (`00_scope.md` R12, `20_memory.md` R75). -/
theorem test_device_load :
    runs (withDevice (start 0x01000 [0xA0CA]) |> gpr .r5 0x3000)
      (fun t => t.reg .r6 == 0x1234 && t.bus == [.readWord 0x03000] && t.pc == 0x01002) = true ∧
    runs (withDevice (start 0x01000 [0x86CA]) |> gpr .r5 0x3000) (fun t => t.bus == [] && t.pc == 0x01002) = true ∧
    runs (withDevice (start 0x01000 [0x84CA]) |> gpr .r5 0x2FFF)
      (fun t => t.bus == [.readByte 0x03003] && t.pc == 0x01002) = true := by decide

/-- A store to a device: the device sees it, and memory keeps nothing of it (`20_memory.md` R75). -/
theorem test_device_store :
    runs (withDevice (start 0x01000 [0xE0CA]) |> gpr .r5 0x2FFF |> gpr .r6 0xABCD)
      (fun t => t.bus == [.writeWord 0x02FFF 0xABCD] && t.byteAt 0x02FFF == 0xCD && t.byteAt 0x03000 == 0x34) = true := by decide

/-- An instruction fetched from a device (`00_scope.md` R12). -/
theorem test_device_fetch :
    runs ({ start 0x03000 [] with memMap := [⟨0x03000, 4, .device⟩] } |>
        presents { Sample.none with devices := [(0x03000, 0xFE), (0x03001, 0x7D)] })
      (fun t => t.psr == { noFlags with e := true } && t.pc == 0x03002 && t.bus == []) = true := by decide

/-- An opcode-table word placed for the host is the next instruction. -/
theorem test_withFetchWord :
    runs (State.reset.withFetchWord 32 0x00173911) (fun t => t.reg .r8 == 0x0017 && t.pc == 0x00004) = true := by decide

/-! ### States and operands that meet the hypotheses of the obligations, clause by clause, at boundary values -/

theorem witness_DecodeOfEncode :
    ([.movw (.short 0b10000) .sp, .addub (.short 0) .r1, .addub (.short 1) .r0, .adduw (.short 0) .r0, .addub (.medium 0) .r0,
      .beq (.short 0b011111110), .br (.medium 0x10000), .bal .sp 0x1FFFE, .loadw (.relShort .sp 30) .r0,
      .loadb (.relShort .sp 15) .r0, .storw .r0 (.relMedium .sp 0x3FFFF), .storb .r0 (.farRel .ra 0x3FFFF), .loadb (.abs 0) .r0,
      .excp 15, .und 0x0400, .unspecified (.one 0x15C0),
      .unspecified (.two 0x15FE 0xFFFF)] : List Instr).all (·.wellFormed) = true := by decide

theorem witness_EncodeOfDecode : (0xFFFE : Word).getLsbD 0 = false ∧ isLong 0x15DE = true ∧ isLong 0x0200 = false := by decide

theorem witness_StepRunsTheDecodedInstruction :
    (∃ s : State, Quiet s ∧ s.waiting = false ∧ s.psr.p = false ∧ s.unserialized = [] ∧ s.pc = 0x1FFFE ∧
      decode [s.tick.byteAt s.pc, s.tick.byteAt (s.pc + 1#18), s.tick.byteAt (s.pc + 2#18), s.tick.byteAt (s.pc + 3#18)] =
        .ok (.di, [0, 0]) ∧
      WordAccessible s .read s.pc) ∧
    ∃ s : State, Quiet s ∧ s.waiting = false ∧ s.psr.p = false ∧ s.unserialized = [] ∧ s.pc = 0x1FFFC ∧
      decode [s.tick.byteAt s.pc, s.tick.byteAt (s.pc + 1#18), s.tick.byteAt (s.pc + 2#18), s.tick.byteAt (s.pc + 3#18)] =
        .ok (.movw (.medium 0x0017) .r8, []) ∧
      WordAccessible s .read s.pc ∧ s.pc.toNat < 0x1FFFE ∧ WordAccessible s .read (s.pc + 2#18) :=
  ⟨⟨start 0x1FFFE [0x7DDE], ⟨rfl, rfl, rfl, rfl⟩, rfl, rfl, rfl, rfl, rfl, rfl⟩,
    ⟨start 0x1FFFC [0x3911, 0x0017], ⟨rfl, rfl, rfl, rfl⟩, rfl, rfl, rfl, rfl, rfl, rfl, by decide, rfl⟩⟩

theorem witness_FetchSeesOldOrNewBytes :
    ∃ s : State, s.unserialized ≠ [] ∧ ∀ b : Byte, ((0x01000#18).toNat, b) ∉ s.unserialized :=
  ⟨(start 0x01000 []).putByte 0x01001 5, by decide, by decide⟩

/-- Each case of the order, from a state of the one shape. -/
theorem witness_StepOrder :
    let s := start 0x01000 [0x0200] |> psr { noFlags with e := true, i := true, p := true }
    nextEvent (s |> presents { resetRequest with nmi := true }) = .reset ∧
      nextEvent (s |> presents { nmiRequest with irq := true }) = .exception .nmi ∧
      nextEvent (s |> presents { irqRequest 16 with ise := true }) = .exception (.maskable 16) ∧
      nextEvent (s |> psr { noFlags with e := true } |> presents { irqRequest 16 with ise := true }) = .exception .ise ∧
      nextEvent { s with waiting := true } = .idle ∧ nextEvent s = .exception .trc ∧
      nextEvent (start 0x01000 [0x0200]) = .instruction := by decide

theorem witness_MaskedRequestIgnored :
    (∃ s : State, s.inputs = irqRequest 16 :: [] ∧ s.psr.e = false ∧ s.psr.i = true) ∧
      ∃ s : State, s.inputs = irqRequest 16 :: [] ∧ s.psr.e = true ∧ s.psr.i = false ∧ s.waiting = true :=
  ⟨⟨start 0x01000 [0x0200] |> psr { noFlags with i := true } |> presents (irqRequest 16), rfl, rfl, rfl⟩,
    ⟨{ (start 0x01000 [] |> psr { noFlags with e := true } |> presents (irqRequest 16)) with waiting := true }, rfl, rfl, rfl, rfl⟩⟩

/-- ISP at its lowest, and at the highest value whose words lie below the reserved range. -/
theorem witness_UnmaskableInterruptsTaken :
    (∃ s : State, Memory.wf s.mem = true ∧ s.sample.reset = false ∧ s.sample.nmi = true ∧ ReadyForEntry 1 s ∧ s.isp = 0x00004) ∧
    (∃ s : State, Memory.wf s.mem = true ∧ s.sample.reset = false ∧ s.sample.nmi = true ∧ ReadyForEntry 1 s ∧ s.isp = 0x0FC00) ∧
    ∃ s : State, Memory.wf s.mem = true ∧ s.sample.reset = false ∧ s.sample.nmi = false ∧
      (s.sample.irq && s.psr.e && s.psr.i) = false ∧ s.sample.irq = true ∧ s.sample.ise = true ∧ ReadyForEntry 15 s :=
  ⟨⟨tableT (start 0x01000 []) |> isp 0x00004 |> presents nmiRequest, by decide, rfl, rfl, ⟨by decide, rfl, rfl, rfl⟩, rfl⟩,
    ⟨tableT (start 0x01000 []) |> isp 0x0FC00 |> presents nmiRequest, by decide, rfl, rfl, ⟨by decide, rfl, rfl, rfl⟩, rfl⟩,
    ⟨tableT (start 0x01000 []) |> isp 0x00004 |> presents { iseRequest with irq := true }, by decide, rfl, rfl, rfl, rfl, rfl,
      ⟨by decide, rfl, rfl, rfl⟩⟩⟩

/-- The ends of the promised range, and of a byte's. -/
theorem witness_MaskableInterruptTaken :
    ∀ b : Byte, b = 16 ∨ b = 127 ∨ b = 0 ∨ b = 255 →
      ∃ s : State, s.sample.icuByte = b ∧ Memory.wf s.mem = true ∧ s.sample.reset = false ∧ s.sample.nmi = false ∧
        s.sample.irq = true ∧ s.psr.e = true ∧ s.psr.i = true ∧ ReadyForEntry b.toNat s := by
  intro b hb
  refine ⟨tableT (start 0x01000 []) |> psr { noFlags with e := true, i := true } |> presents (irqRequest b), rfl,
    (by decide : Memory.wf (tableT (start 0x01000 [])).mem = true), rfl, rfl, rfl, rfl, rfl, ?_⟩
  rcases hb with rfl | rfl | rfl | rfl <;> exact ⟨by decide, rfl, rfl, rfl⟩

theorem witness_TraceTrapTaken :
    ∃ s : State, Memory.wf s.mem = true ∧ Quiet s ∧ s.waiting = false ∧ s.psr.p = true ∧ ReadyForEntry Config.trcVector s :=
  ⟨tableT (start 0x01000 []) |> psr { noFlags with p := true }, by decide, ⟨rfl, rfl, rfl, rfl⟩, rfl, rfl,
    ⟨by decide, rfl, rfl, rfl⟩⟩

/-- Each vector code's index, one code that names UND, ISP at its lowest. -/
theorem witness_ExcpTakesTheTrap :
    ∀ c : BitVec 4 × Nat, c ∈ [(5, 5), (6, 6), (7, 7), (8, 8), (9, 10), (10, 10), (0, 10), (15, 10)] →
      c.2 = (if c.1 = 5#4 ∨ c.1 = 6#4 ∨ c.1 = 7#4 ∨ c.1 = 8#4 then c.1.toNat else 10) ∧
        ∃ s : State, Memory.wf s.mem = true ∧ ReadyForEntry c.2 s := by
  intro c hc
  refine ⟨by revert c; decide, tableT (start 0x01000 []) |> isp 0x00004, by decide, by decide, rfl, rfl, ?_⟩
  simp only [List.mem_cons, List.not_mem_nil, or_false] at hc
  rcases hc with rfl | rfl | rfl | rfl | rfl | rfl | rfl | rfl <;> rfl

theorem witness_UndefinedWordTakesUnd : ∃ s : State, Memory.wf s.mem = true ∧ ReadyForEntry 10 s :=
  ⟨tableT (start 0x01000 []) |> isp 0x00004, by decide, by decide, rfl, rfl, rfl⟩

theorem witness_RetxPopsPcAndPsr :
    ∀ a : Addr, a = 0x00000 ∨ a = 0x0FBFC →
      ∃ s : State, s.isp = a ∧ s.isp.toNat ≤ 0xFFFC ∧ WordAccessible s .read s.isp ∧ WordAccessible s .read (s.isp + 2#18) := by
  rintro a (rfl | rfl)
  · exact ⟨start 0x01000 [] |> isp 0x00000, rfl, by decide, rfl, rfl⟩
  · exact ⟨start 0x01000 [] |> isp 0x0FBFC, rfl, by decide, rfl, rfl⟩

theorem witness_EntryThenRetxRestores :
    ∀ k : Exc, k = .trc ∨ k = .svc ∨ k = .nmi ∨ k = .maskable 16 ∨ k = .maskable 255 →
      ∃ s t : State, s.Legal ∧ WordInMemory s (s.isp - 4#18) ∧ WordInMemory s (s.isp - 2#18) ∧ enter k s = .next t := by
  have legal : (tableT (start 0x01000 [])).Legal := by decide
  rintro k (rfl | rfl | rfl | rfl | rfl)
  · exact ⟨_, _, legal, ⟨rfl, rfl⟩, ⟨rfl, rfl⟩, rfl⟩
  · exact ⟨_, _, legal, ⟨rfl, rfl⟩, ⟨rfl, rfl⟩, rfl⟩
  · exact ⟨_, _, legal, ⟨rfl, rfl⟩, ⟨rfl, rfl⟩, rfl⟩
  · exact ⟨_, _, legal, ⟨rfl, rfl⟩, ⟨rfl, rfl⟩, rfl⟩
  · exact ⟨_, _, legal, ⟨rfl, rfl⟩, ⟨rfl, rfl⟩, rfl⟩

theorem witness_TracedInstructionArmsTheTrap :
    ∃ s t : State, nextEvent s = .instruction ∧ s.psr.t = true ∧ fetchInstr s.tick.copyTrace = .next .nop ∧
      loadsPsr .nop = false ∧ entersTrap .nop = false ∧ step s = .next t ∧ Quiet t ∧ t.waiting = false :=
  ⟨start 0x01000 [0x0200] |> psr { noFlags with t := true }, _, rfl, rfl, rfl, rfl, rfl, rfl, ⟨rfl, rfl, rfl, rfl⟩, rfl⟩

theorem witness_WarmReset : ∃ s : State, s.sample.reset = true ∧ s.sample.nmi = true ∧ s.waiting = true :=
  ⟨{ (start 0x01000 [] |> presents { resetRequest with nmi := true }) with waiting := true }, rfl, rfl, rfl⟩

/-- Without carry-in and with it. -/
theorem witness_AddSetsCarryAndOverflow :
    ∃ s : State, (Instr.addb = .addb ∧ false = false) ∧ (Instr.addcb = .addcb ∧ true = s.psr.c) ∧
      (Instr.addw = .addw ∧ false = false) ∧ (Instr.addcw = .addcw ∧ true = s.psr.c) :=
  ⟨start 0x01000 [] |> psr { noFlags with c := true }, ⟨rfl, rfl⟩, ⟨rfl, rfl⟩, ⟨rfl, rfl⟩, ⟨rfl, rfl⟩⟩

theorem witness_SubSetsBorrowAndOverflow :
    ∃ s : State, (Instr.subb = .subb ∧ false = false) ∧ (Instr.subcb = .subcb ∧ true = s.psr.c) ∧
      (Instr.subw = .subw ∧ false = false) ∧ (Instr.subcw = .subcw ∧ true = s.psr.c) :=
  ⟨start 0x01000 [] |> psr { noFlags with c := true }, ⟨rfl, rfl⟩, ⟨rfl, rfl⟩, ⟨rfl, rfl⟩, ⟨rfl, rfl⟩⟩

/-- Every boundary count of both widths. -/
theorem witness_ShiftInRange :
    ∀ c : Word × Int, c ∈ [(0xFFF9, -7), (0xFFFF, -1), (0, 0), (7, 7), (0xFFF1, -15), (0xFFF8, -8), (8, 8), (15, 15)] →
      (srcByte (start 0x01000 []) (.medium c.1)).toInt = c.2 ∧ -15 ≤ c.2 ∧ c.2 ≤ 15 := by decide

theorem witness_ShiftOutOfRangeCompletes :
    ∀ c : Word × Int, c ∈ [(8, 8), (0xFFF8, -8), (16, 16), (0xFFF0, -16), (0x7F, 127), (0x80, -128)] →
      (srcByte (start 0x01000 []) (.medium c.1)).toInt = c.2 ∧ (c.2 < -7 ∨ 7 < c.2) := by decide

theorem witness_TbitCopiesTheBit :
    (srcWord (start 0x01000 []) (.short 15)).toNat = 15 ∧ (srcWord (start 0x01000 []) (.medium 16)).toNat = 16 := by decide

theorem witness_PcArithmetic :
    pcLegal 0x1FFFE ∧ pcLegal 0x00000 ∧ (0b011111110 : BitVec 9).getLsbD 0 = false ∧ (0b100000000 : BitVec 9).getLsbD 0 = false := by
  decide

theorem witness_JumpThroughTheLinkReturns :
    ∃ s t u : State, u.reg .ra = t.reg .ra ∧ exec (.bal .ra 0x00020) s = .next t ∧ s.pc = 0x1FFFC ∧
      ∃ t' u' : State, u'.reg .r3 = t'.reg .r3 ∧ exec (.jal .r3 .r3) s = .next t' :=
  ⟨start 0x1FFFC [], _, _, rfl, rfl, rfl, _, _, rfl, rfl⟩

/-- The last readable byte and word before the reserved range, after it, and at the end of the address space; a device, and a
word of which one byte is a device's. -/
theorem witness_LoadsReadMemory :
    ∃ s : State, ByteAccessible s .read (effAddr s (.abs 0x0FBFF)) ∧ ByteAccessible s .read (effAddr s (.abs 0x10000)) ∧
      ByteAccessible s .read (effAddr s (.abs 0x3FFFF)) ∧ WordAccessible s .read (effAddr s (.abs 0x0FBFE)) ∧
      WordAccessible s .read (effAddr s (.abs 0x10000)) ∧ WordAccessible s .read (effAddr s (.abs 0x3FFFE)) ∧
      ByteAccessible s .read (effAddr s (.abs 0x03000)) ∧ WordAccessible s .read (effAddr s (.abs 0x02FFF)) ∧
      isDevice s.memMap 0x03000 = true :=
  ⟨withDevice (start 0x01000 []), rfl, rfl, rfl, rfl, rfl, rfl, rfl, rfl, rfl⟩

/-- Memory at the ends of what can be written, a device, and a word of which one byte is a device's. -/
theorem witness_StoresWriteMemory :
    ∃ s : State, Memory.wf s.mem = true ∧ ByteAccessible s .write (effAddr s (.abs 0x0FBFF)) ∧
      ByteAccessible s .write (effAddr s (.abs 0x3FFFF)) ∧ WordAccessible s .write (effAddr s (.abs 0x0FBFE)) ∧
      WordAccessible s .write (effAddr s (.relShort .r5 9)) ∧ WordAccessible s .write (effAddr s (.abs 0x3FFFE)) ∧
      ByteAccessible s .write (effAddr s (.abs 0x03000)) ∧ WordAccessible s .write (effAddr s (.abs 0x02FFF)) ∧
      isDevice s.memMap 0x03000 = true :=
  ⟨withDevice (start 0x01000 []) |> gpr .r5 0x2000, by decide, rfl, rfl, rfl, rfl, rfl, rfl, rfl, rfl⟩

theorem witness_LoadAfterStore :
    ∃ s t : State, Memory.wf s.mem = true ∧ exec (.storw .r0 (.relShort .r5 9)) s = .next t ∧
      WordInMemory s (effAddr s (.relShort .r5 9)) ∧ effAddr t (.abs 0x02009) = effAddr s (.relShort .r5 9) ∧
      effAddr t (.abs 0x0200A) = effAddr s (.relShort .r5 9) + 1#18 :=
  ⟨start 0x01000 [] |> gpr .r5 0x2000 |> gpr .r0 0xA55A, _, by decide, rfl, ⟨rfl, rfl⟩, rfl, rfl⟩

/-- Device and memory at both ends of a device's range, and a listed location that is loaded. -/
theorem witness_DevicesSeeAccesses :
    let map : List Region := [⟨0x03000, 4, .device⟩]
    isDevice map 0x03000 = true ∧ isDevice map 0x03003 = true ∧ isDevice map 0x02FFF = false ∧
      isDevice map (0x02FFF + 1#18) = true ∧ isDevice map 0x03004 = false ∧ isDevice map (0x02FFE + 1#18) = false ∧
      ∃ s : State, isDevice s.memMap (effAddr s (.abs 0x03001)) = true ∧ isReserved (effAddr s (.abs 0x03001)) = false ∧
        s.devices.find? (fun c => c.1 = (effAddr s (.abs 0x03001)).toNat) = some ((effAddr s (.abs 0x03001)).toNat, 0x12) :=
  ⟨by decide, by decide, by decide, by decide, by decide, by decide, (withDevice (start 0x01000 [])).tick, by decide, by decide,
    by decide⟩

/-- Each clause at the ends of its range. -/
theorem witness_DataReferenceStops :
    ∃ s : State, effAddr s (.abs 0x3FFFF) = 0x3FFFF#18 ∧ (effAddr s (.abs 0x0FC00)).toNat = 0x0FC00 ∧
      (effAddr s (.abs 0x0FFFF)).toNat = 0x0FFFF ∧ (effAddr s (.abs 0x0FBFF)).toNat = 0x0FBFF ∧
      (isp 0x00003 s).isp.toNat < 4 ∧ 0xFFFC < (isp 0x0FFFD s).isp.toNat :=
  ⟨start 0x01000 [], rfl, rfl, rfl, rfl, by decide, by decide⟩

theorem witness_StepKeepsLegal :
    ∃ s t : State, s.Legal ∧ step s = .next t ∧ s.pc = 0x1FFFE ∧ t.pc = 0x00000 :=
  ⟨start 0x1FFFE [0x7DDE], _, by decide, rfl, rfl, rfl⟩

theorem witness_OnlyTheDestinationIsWritten :
    ∃ s t : State, exec (.movw (.short 1) .r3) s = .next t ∧ destReg (.movw (.short 1) .r3) ≠ some .r2 ∧ t.reg .r3 ≠ s.reg .r3 :=
  ⟨start 0x01000 [], _, rfl, by decide, by decide⟩

/-- Each field changed by an instruction that may change it. -/
theorem witness_WhoWritesThePsr :
    (∃ s t : State, exec (.cmpw (.short 0) .r1) s = .next t ∧ loadsPsr (.cmpw (.short 0) .r1) = false ∧ t.psr.z ≠ s.psr.z) ∧
    (∃ s t : State, exec (.subw (.short 1) .r1) s = .next t ∧ loadsPsr (.subw (.short 1) .r1) = false ∧ t.psr.c ≠ s.psr.c) ∧
    (∃ s t : State, exec (.tbit (.short 0) .r1) s = .next t ∧ loadsPsr (.tbit (.short 0) .r1) = false ∧ t.psr.f ≠ s.psr.f) ∧
    (∃ s t : State, exec .ei s = .next t ∧ loadsPsr .ei = false ∧ t.psr.e ≠ s.psr.e) ∧
    ∃ s t : State, exec (.excp 5) s = .next t ∧ loadsPsr (.excp 5) = false ∧ t.psr.t ≠ s.psr.t :=
  ⟨⟨start 0x01000 [], _, rfl, rfl, by decide⟩, ⟨start 0x01000 [], _, rfl, rfl, by decide⟩,
    ⟨start 0x01000 [] |> psr { noFlags with f := true }, _, rfl, rfl, by decide⟩, ⟨start 0x01000 [], _, rfl, rfl, by decide⟩,
    ⟨tableT (start 0x01000 []) |> psr { noFlags with t := true }, _, rfl, rfl, by decide⟩⟩

theorem witness_WhoWritesMemory :
    ∃ s t : State, exec (.loadw (.abs 0) .r0) s = .next t ∧ storesData (.loadw (.abs 0) .r0) = false ∧
      entersTrap (.loadw (.abs 0) .r0) = false :=
  ⟨start 0x01000 [], _, rfl, rfl, rfl⟩

theorem witness_WhoWritesTheSpecialRegisters :
    (∃ s t : State, exec (.lpr .r0 .intbase) s = .next t ∧ t.intbase ≠ s.intbase) ∧
    (∃ s t : State, exec .retx s = .next t ∧ t.isp ≠ s.isp) ∧ ∃ s t : State, exec .wait s = .next t ∧ t.waiting ≠ s.waiting :=
  ⟨⟨start 0x01000 [] |> gpr .r0 0x0200, _, rfl, by decide⟩, ⟨start 0x01000 [], _, rfl, by decide⟩,
    ⟨start 0x01000 [], _, rfl, by decide⟩⟩

theorem witness_SerializingInstructions :
    (∃ s t : State, Memory.wf s.mem = true ∧ s.unserialized ≠ [] ∧ exec (.lpr .r0 .psr) s = .next t ∧
      serializes (.lpr .r0 .psr) = true) ∧
    ∃ s t : State, Memory.wf s.mem = true ∧ exec (.storw .r0 (.abs 0)) s = .next t ∧ serializes (.storw .r0 (.abs 0)) = false ∧
      t.byteAt 0 ≠ s.byteAt 0 :=
  ⟨⟨(start 0x01000 []).putByte 0x02000 5, _, by decide, by decide, rfl, rfl⟩,
    ⟨start 0x01000 [] |> gpr .r0 0x1234, _, by decide, rfl, rfl, by decide⟩⟩

theorem witness_NoOtherSynchronousException :
    ∃ i : Instr, referencesData i = false ∧ entersTrap i = false ∧ ∀ w, i ≠ .unspecified w :=
  ⟨.wait, rfl, rfl, fun _ h => nomatch h⟩


end Sys2Proof.Tests
end

/-! PROOFS of `DevicesSeeAccesses` (O49): which accesses devices see, and what a listed device location holds. -/

namespace Sys2Proof.Machine

/-! ### What devices see (`20_memory.md` R75; D25, log 25) -/

theorem BusAccess.seen_of_isSeen {e : BusAccess} {map : List Region} (h : e.isSeen map = true) : e.seen map = [e] :=
  if_pos h

theorem BusAccess.seen_of_not_isSeen {e : BusAccess} {map : List Region} (h : e.isSeen map = false) : e.seen map = [] :=
  if_neg (Bool.eq_false_iff.mp h)

@[simp] theorem BusAccess.isSeen_readByte (map : List Region) (a : Addr) :
    (BusAccess.readByte a).isSeen map = isDevice map a := rfl

@[simp] theorem BusAccess.isSeen_writeByte (map : List Region) (a : Addr) (b : Byte) :
    (BusAccess.writeByte a b).isSeen map = isDevice map a := rfl

@[simp] theorem BusAccess.isSeen_readWord (map : List Region) (a : Addr) :
    (BusAccess.readWord a).isSeen map = (isDevice map a || isDevice map (a + 1#18)) := rfl

@[simp] theorem BusAccess.isSeen_writeWord (map : List Region) (a : Addr) (v : Word) :
    (BusAccess.writeWord a v).isSeen map = (isDevice map a || isDevice map (a + 1#18)) := rfl

/-! ### What a device location holds (`00_scope.md` R12; log 41) -/

/-- A device's byte may be read and written wherever it lies outside the reserved range (`20_memory.md` R71, R72). -/
theorem checkAccess_device {s : State} {a : Addr} (acc : Access) (hdev : isDevice s.memMap a = true)
    (hres : isReserved a = false) : checkAccess s acc a = .next () := by
  have hkind : regionKind s.memMap a.toNat = .device := of_decide_eq_true hdev
  simp [checkAccess, hres, hkind]

theorem deviceByte_of_find? {cells : List Host.Cell} {a : Nat} {b : Byte} (draw : Nat)
    (h : cells.find? (fun c => c.1 = a) = some (a, b)) : deviceByte cells draw a = b := by
  induction cells with
  | nil => simp at h
  | cons c rest ih =>
    obtain ⟨k, v⟩ := c
    by_cases hk : k = a
    · simpa [deviceByte, hk] using h
    · have hrest : rest.find? (fun c => c.1 = a) = some (a, b) := by simpa [hk] using h
      simpa [deviceByte, hk] using ih hrest

theorem State.byteAt_device_listed {s : State} {a : Addr} {b : Byte} (hdev : isDevice s.memMap a = true)
    (hlist : s.devices.find? (fun c => c.1 = a.toNat) = some (a.toNat, b)) : s.byteAt a = b :=
  (if_pos hdev).trans (deviceByte_of_find? s.draws hlist)

/-! ### The byte load (`48_loadstore.md` R250) -/

/-- A byte load that may read its address completes, and the destination's low byte is the byte read. -/
theorem exec_loadb_regByte {m : Mode} {s : State} (d : Reg) (h : checkAccess s .read (effAddr s m) = .next ()) :
    ∃ t, exec (.loadb m d) s = .next t ∧ t.regByte d = s.byteAt (effAddr s m) := by
  refine ⟨_, execLoadb_next.mpr ⟨h, rfl⟩, ?_⟩
  simp only [State.regByte, State.reg_advance, State.reg_setRegByte_low]

/-- Settles O49: an access is recorded exactly where it is seen, and a load of a listed location reads the listed byte. -/
theorem devicesSeeAccesses : Obligations.DevicesSeeAccesses := by
  refine ⟨fun map a b v => ⟨fun hdev => ?_, fun hdev => ?_, fun hmem => ?_, fun hmem => ?_⟩,
    fun m d s b hdev hres hlist => ?_⟩
  · exact ⟨BusAccess.seen_of_isSeen hdev, BusAccess.seen_of_isSeen hdev⟩
  · exact ⟨BusAccess.seen_of_isSeen (by simpa using hdev), BusAccess.seen_of_isSeen (by simpa using hdev)⟩
  · exact ⟨BusAccess.seen_of_not_isSeen hmem, BusAccess.seen_of_not_isSeen hmem⟩
  · exact ⟨BusAccess.seen_of_not_isSeen (by simpa using hmem), BusAccess.seen_of_not_isSeen (by simpa using hmem)⟩
  · obtain ⟨t, hexec, hbyte⟩ := exec_loadb_regByte d (checkAccess_device .read hdev hres)
    exact ⟨t, hexec, hbyte.trans (State.byteAt_device_listed hdev hlist)⟩

end Sys2Proof.Machine

/-! PROOFS of the whole-machine statements of `10_state.md`: what an instruction can change, and what every step keeps. -/

namespace Sys2Proof.Machine

/-! ### What an instruction can do to the state

`exec_effect` says it once for all instructions; the statements about every instruction are case splits over its seven cases. -/

/-- What an instruction that neither loads the whole PSR nor takes a trap can leave in the PSR (`10_state.md` R30 to R39). -/
inductive PsrEffect (p : Psr) (i : Instr) : Psr → Prop
  | kept : PsrEffect p i p
  | added (hi : addsOrSubtracts i = true) (c f : Bool) : PsrEffect p i (p.withCarryOverflow c f)
  | compared (hi : compares i = true) {n : Nat} (a b : BitVec n) : PsrEffect p i (p.compared a b)
  | tested (hi : ∃ o r, i = .tbit o r) (f : Bool) : PsrEffect p i (p.withF f)
  | enabled (hi : i = .di ∨ i = .ei) (e : Bool) : PsrEffect p i { p with e := e }

/-- Registers that differ from those of a state at most in the one an instruction names (`10_state.md` R24). -/
def OnlyDestChanged (s : State) (i : Instr) (regs : Regs) : Prop :=
  ∀ r : Reg, destReg i ≠ some r → regs.get r = s.reg r

/-- What an instruction can make of a state. -/
inductive ExecEffect (s : State) (i : Instr) : State → Prop
  /-- A result in a register, the flags and the PC. -/
  | computed {regs : Regs} {psr : Psr} {pc : Addr} (hregs : OnlyDestChanged s i regs) (hpsr : PsrEffect s.psr i psr)
      (hpc : pcLegal pc) : ExecEffect s i { s with regs := regs, psr := psr, pc := pc }
  /-- WAIT. -/
  | waited (hi : i = .wait) : ExecEffect s i { s.advance 2 with waiting := true }
  /-- LPR. -/
  | loadedProcReg (src : Reg) (dest : ProcReg) (hi : i = .lpr src dest) :
      ExecEffect s i ((writeProcReg dest (s.reg src) s).serialize.advance 2)
  /-- LOADi: one data access and a result in a register. -/
  | loaded {e : BusAccess} {regs : Regs} {pc : Addr} (hi : referencesData i = true) (he : ∀ a, e ≠ .acknowledge a)
      (hregs : OnlyDestChanged s i regs) (hpc : pcLegal pc) : ExecEffect s i { s.access e with regs := regs, pc := pc }
  /-- STORi: one data access and new bytes in memory. -/
  | stored {e : BusAccess} {mem stale : List Host.Cell} {pc : Addr} (hi : storesData i = true)
      (he : ∀ a, e ≠ .acknowledge a) (hmem : Memory.wf s.mem = true → Memory.wf mem = true) (hpc : pcLegal pc) :
      ExecEffect s i { s.access e with mem := mem, unserialized := stale, pc := pc }
  /-- RETX. -/
  | returned {t : State} (hi : i = .retx) (hret : returnFromException s = .next t) : ExecEffect s i t
  /-- EXCP and the words of Table A-2. -/
  | trapped {k : Exc} {t : State} (hi : entersTrap i = true) (hk : excIsInterrupt k = false)
      (hent : enter k s = .next t) : ExecEffect s i t

section shapes
variable {i : Instr} {d : Reg} {s t : State}

theorem onlyDestChanged_refl (s : State) (i : Instr) : OnlyDestChanged s i s.regs := fun _ _ => rfl

theorem onlyDestChanged_set (hd : destReg i = some d) (v : Word) : OnlyDestChanged s i (s.regs.set d v) := by
  intro r hr
  have hne : r ≠ d := fun e => hr (e ▸ hd)
  rw [Regs.get_set, if_neg hne]
  rfl

theorem ExecEffect.setReg {p : Psr} (hd : destReg i = some d) (hp : PsrEffect s.psr i p) (v : Word) {pc : Addr}
    (hpc : pcLegal pc) : ExecEffect s i (((s.setPsr p).setReg d v).setPc pc) :=
  .computed (onlyDestChanged_set hd v) hp hpc

theorem ExecEffect.setPsr {p : Psr} (hp : PsrEffect s.psr i p) (len : Nat) : ExecEffect s i ((s.setPsr p).advance len) :=
  .computed (onlyDestChanged_refl s i) hp (pcLegal_nextPc _ _)

theorem ExecEffect.setPc {pc : Addr} (hpc : pcLegal pc) : ExecEffect s i (s.setPc pc) :=
  .computed (onlyDestChanged_refl s i) .kept hpc

theorem byteResult_effect {op : Byte → Byte → Byte} {src : Src} (hd : destReg i = some d)
    (h : byteResult op src d s = .next t) : ExecEffect s i t := by
  cases h
  exact .setReg hd .kept _ (pcLegal_nextPc _ _)

theorem wordResult_effect {op : Word → Word → Word} {src : Src} (hd : destReg i = some d)
    (h : wordResult op src d s = .next t) : ExecEffect s i t := by
  cases h
  exact .setReg hd .kept _ (pcLegal_nextPc _ _)

theorem byteArith_effect {result : Byte → Byte → Bool → Byte} {carry overflow : Byte → Byte → Bool → Bool} {c : Bool}
    {src : Src} (hd : destReg i = some d) (hi : addsOrSubtracts i = true)
    (h : byteArith result carry overflow c src d s = .next t) : ExecEffect s i t := by
  cases h
  exact .setReg hd (.added hi _ _) _ (pcLegal_nextPc _ _)

theorem wordArith_effect {result : Word → Word → Bool → Word} {carry overflow : Word → Word → Bool → Bool} {c : Bool}
    {src : Src} (hd : destReg i = some d) (hi : addsOrSubtracts i = true)
    (h : wordArith result carry overflow c src d s = .next t) : ExecEffect s i t := by
  cases h
  exact .setReg hd (.added hi _ _) _ (pcLegal_nextPc _ _)

theorem byteShift_effect {op : Byte → Int → Byte → Byte} {count : Src} (hd : destReg i = some d)
    (h : byteShift op count d s = .next t) : ExecEffect s i t := by
  cases h
  exact .setReg hd .kept _ (pcLegal_nextPc _ _)

theorem wordShift_effect {op : Word → Int → Word → Word} {count : Src} (hd : destReg i = some d)
    (h : wordShift op count d s = .next t) : ExecEffect s i t := by
  cases h
  exact .setReg hd .kept _ (pcLegal_nextPc _ _)

theorem saveCondition_effect {c : Cond} (hd : destReg i = some d) (h : saveCondition c d s = .next t) :
    ExecEffect s i t := by
  cases h
  exact .setReg hd .kept _ (pcLegal_nextPc _ _)

theorem branch_effect {taken : Bool} {disp : Disp} (h : branch taken disp s = .next t) : ExecEffect s i t := by
  cases h
  cases taken with
  | false => exact .setPc (pcLegal_nextPc _ _)
  | true => exact .setPc (pcLegal_branchTarget _ _)

theorem jump_effect {taken : Bool} {target : Reg} (h : jump taken target s = .next t) : ExecEffect s i t := by
  cases h
  cases taken with
  | false => exact .setPc (pcLegal_nextPc _ _)
  | true => exact .setPc (pcLegal_ofCodePointer _)

theorem execLoadb_effect {m : Mode} (hd : destReg i = some d) (hi : referencesData i = true)
    (h : execLoadb m d s = .next t) : ExecEffect s i t := by
  obtain ⟨-, rfl⟩ := execLoadb_next.mp h
  exact .loaded hi nofun (onlyDestChanged_set hd _) (pcLegal_nextPc _ _)

theorem execLoadw_effect {m : Mode} (hd : destReg i = some d) (hi : referencesData i = true)
    (h : execLoadw m d s = .next t) : ExecEffect s i t := by
  obtain ⟨-, rfl⟩ := execLoadw_next.mp h
  exact .loaded hi nofun (onlyDestChanged_set hd _) (pcLegal_nextPc _ _)

theorem execStorb_effect {m : Mode} {r : Reg} (hi : storesData i = true) (h : execStorb r m s = .next t) :
    ExecEffect s i t := by
  obtain ⟨-, rfl⟩ := execStorb_next.mp h
  exact .stored hi nofun (State.wf_putByte (s.access _) _ _) (pcLegal_nextPc _ _)

theorem execStorw_effect {m : Mode} {r : Reg} (hi : storesData i = true) (h : execStorw r m s = .next t) :
    ExecEffect s i t := by
  obtain ⟨-, rfl⟩ := execStorw_next.mp h
  exact .stored hi nofun (State.wf_putWord (s.access _) _ _) (pcLegal_nextPc _ _)

end shapes

/-- EXCP takes a trap, whatever its vector code (`47_jumps.md` R230). -/
theorem excIsInterrupt_excpTrap (vector : BitVec 4) : excIsInterrupt (excpTrap vector) = false := by
  unfold excpTrap
  split <;> rfl

/-- All that an instruction can do. -/
theorem exec_effect {i : Instr} {s t : State} (h : exec i s = .next t) : ExecEffect s i t := by
  cases i with
  | movb | addub | mulb | andb | orb | xorb =>
    dsimp only [exec] at h
    exact byteResult_effect rfl h
  | movw | adduw | mulw | andw | orw | xorw =>
    dsimp only [exec] at h
    exact wordResult_effect rfl h
  | addb | addcb | subb | subcb =>
    dsimp only [exec] at h
    exact byteArith_effect rfl rfl h
  | addw | addcw | subw | subcw =>
    dsimp only [exec] at h
    exact wordArith_effect rfl rfl h
  | ashub | lshb =>
    dsimp only [exec] at h
    exact byteShift_effect rfl h
  | ashuw | lshw =>
    dsimp only [exec] at h
    exact wordShift_effect rfl h
  | seq | sne | scs | scc | shi | sls | sgt | sle | sfs | sfc | slo | shs | slt | sge =>
    dsimp only [exec] at h
    exact saveCondition_effect rfl h
  | beq | bne | bcs | bcc | bhi | bls | bgt | ble | bfs | bfc | blo | bhs | blt | bge | br =>
    dsimp only [exec] at h
    exact branch_effect h
  | jeq | jne | jcs | jcc | jhi | jls | jgt | jle | jfs | jfc | jlo | jhs | jlt | jge | jump =>
    dsimp only [exec] at h
    exact jump_effect h
  | movxb | movzb | spr =>
    cases h
    exact .setReg rfl .kept _ (pcLegal_nextPc _ _)
  | bal =>
    cases h
    exact .setReg rfl .kept _ (pcLegal_branchTarget _ _)
  | jal =>
    cases h
    exact .setReg rfl .kept _ (pcLegal_ofCodePointer _)
  | cmpb | cmpw =>
    cases h
    exact .setPsr (.compared rfl _ _) _
  | tbit offset src =>
    cases h
    exact .setPsr (.tested ⟨offset, src, rfl⟩ _) _
  | di =>
    cases h
    exact .setPsr (.enabled (.inl rfl) _) _
  | ei =>
    cases h
    exact .setPsr (.enabled (.inr rfl) _) _
  | nop =>
    cases h
    exact .setPc (pcLegal_nextPc _ _)
  | wait =>
    cases h
    exact .waited rfl
  | lpr src dest =>
    cases h
    exact .loadedProcReg src dest rfl
  | loadb =>
    dsimp only [exec] at h
    exact execLoadb_effect rfl rfl h
  | loadw =>
    dsimp only [exec] at h
    exact execLoadw_effect rfl rfl h
  | storb =>
    dsimp only [exec] at h
    exact execStorb_effect rfl h
  | storw =>
    dsimp only [exec] at h
    exact execStorw_effect rfl h
  | retx => exact .returned rfl h
  | excp vector => exact .trapped rfl (excIsInterrupt_excpTrap vector) h
  | und => exact .trapped (k := .und) rfl rfl h
  | unspecified => cases h

/-! ### What taking a trap and returning leave alone (`60_exceptions.md` R296, R297, `47_jumps.md` R235) -/

section exceptions
variable {k : Exc} {s t : State}

theorem enter_regs (h : enter k s = .next t) : t.regs = s.regs := by
  obtain ⟨-, -, -, -, rfl⟩ := enter_next.mp h
  rfl

theorem enter_isp (h : enter k s = .next t) : 4 ≤ s.isp.toNat ∧ t.isp = s.isp - 4#18 := by
  obtain ⟨h4, -, -, -, rfl⟩ := enter_next.mp h
  exact ⟨h4, rfl⟩

theorem enter_psr (h : enter k s = .next t) : t.psr = handlerPsr k s.psr := by
  obtain ⟨-, -, -, -, rfl⟩ := enter_next.mp h
  rfl

theorem enter_pcLegal (h : enter k s = .next t) : pcLegal t.pc := by
  obtain ⟨-, -, -, -, rfl⟩ := enter_next.mp h
  exact pcLegal_ofCodePointer _

theorem enter_wf (h : enter k s = .next t) (hs : Memory.wf s.mem = true) : Memory.wf t.mem = true := by
  obtain ⟨-, -, -, -, rfl⟩ := enter_next.mp h
  exact pushFrame_wf k s hs

/-- INTBASE, CFG and the model's own fields are not an exception's to change. -/
theorem enter_keeps (h : enter k s = .next t) :
    t.intbase = s.intbase ∧ t.cfg = s.cfg ∧ t.memMap = s.memMap ∧ t.inputs = s.inputs ∧ t.devices = s.devices ∧
      t.draws = s.draws := by
  obtain ⟨-, -, -, -, rfl⟩ := enter_next.mp h
  exact ⟨pushFrame_intbase k s, pushFrame_cfg k s, pushFrame_memMap k s, pushFrame_inputs k s, pushFrame_devices k s,
    pushFrame_draws k s⟩

/-- A trap makes no acknowledge cycle (`60_exceptions.md` R293). -/
theorem excAckAddr_of_trap (hk : excIsInterrupt k = false) : excAckAddr k = none := by
  cases k with
  | nmi | maskable | ise => cases hk
  | trc | svc | dvz | flg | bpt | und => rfl

/-- The handler of a trap runs with P and T cleared and the rest of the PSR kept (`60_exceptions.md` R297). -/
theorem handlerPsr_of_trap (hk : excIsInterrupt k = false) (p : Psr) :
    handlerPsr k p = { p with p := false, t := false } :=
  if_neg (Bool.eq_false_iff.mp hk)

/-- What devices see of a trap are its two pushes and the table read, no acknowledge cycle (`60_exceptions.md` R296). -/
theorem enter_bus_of_trap (hk : excIsInterrupt k = false) (h : enter k s = .next t) :
    ∃ seen, t.bus = seen ++ s.bus ∧ ∀ a : Addr, BusAccess.acknowledge a ∉ seen := by
  obtain ⟨-, -, -, -, rfl⟩ := enter_next.mp h
  refine ⟨(BusAccess.readWord (dispatchAddr k s)).seen s.memMap ++
    ((BusAccess.writeWord (s.isp - 4#18 + 2#18) ((savedPsr k s.psr).image (Config.freeReservedBits s.draws))).seen s.memMap ++
      (BusAccess.writeWord (s.isp - 4#18) (codePointer s.pc)).seen s.memMap), ?_, fun a ha => ?_⟩
  · simp [excAckAddr_of_trap hk, pushFrame_bus]
  · simp at ha

theorem returnFromException_regs (h : returnFromException s = .next t) : t.regs = s.regs := by
  obtain ⟨-, -, -, rfl⟩ := returnFromException_next.mp h
  rfl

theorem returnFromException_byteAt (h : returnFromException s = .next t) (a : Addr) : t.byteAt a = s.byteAt a := by
  obtain ⟨-, -, -, rfl⟩ := returnFromException_next.mp h
  rfl

/-- INTBASE, CFG, the waiting state and the model's own fields are not RETX's to change. -/
theorem returnFromException_keeps (h : returnFromException s = .next t) :
    t.intbase = s.intbase ∧ t.cfg = s.cfg ∧ t.waiting = s.waiting ∧ t.memMap = s.memMap ∧
      t.inputs = s.inputs ∧ t.devices = s.devices ∧ t.draws = s.draws := by
  obtain ⟨-, -, -, rfl⟩ := returnFromException_next.mp h
  exact ⟨rfl, rfl, rfl, rfl, rfl, rfl, rfl⟩

/-- What devices see of RETX are its two pops (`47_jumps.md` R235). -/
theorem returnFromException_bus (h : returnFromException s = .next t) :
    ∃ seen, t.bus = seen ++ s.bus ∧ ∀ a : Addr, BusAccess.acknowledge a ∉ seen := by
  obtain ⟨-, -, -, rfl⟩ := returnFromException_next.mp h
  refine ⟨(BusAccess.readWord (s.isp + 2#18)).seen s.memMap ++ (BusAccess.readWord s.isp).seen s.memMap, ?_,
    fun a ha => ?_⟩
  · simp
  · simp at ha

end exceptions

/-! ### Every step keeps a state legal (`10_state.md` R25, R28, R29, R42) -/

/-- ISP stays even and below 2^16 when an exception lowers it: below 4 the entry is refused (D15; log 15). -/
theorem dedicatedLegal_sub_four {a : Addr} (ha : dedicatedLegal a) (h4 : 4 ≤ a.toNat) : dedicatedLegal (a - 4#18) := by
  rw [dedicatedLegal_iff] at ha ⊢
  bv_omega

/-- ISP stays even and below 2^16 when RETX raises it: FFFC hex, from where it would not, lies in the reserved range, from which
nothing is popped (`20_memory.md` R72). -/
theorem dedicatedLegal_add_four {s : State} (ha : dedicatedLegal s.isp) (hpop : checkWord s .read s.isp = .next ()) :
    dedicatedLegal (s.isp + 4#18) := by
  obtain ⟨-, hlow, -⟩ := checkWord_next.mp hpop
  obtain ⟨hres, -, -⟩ := checkAccess_next hlow
  simp only [isReserved, Bool.and_eq_false_iff, decide_eq_false_iff_not] at hres
  rw [dedicatedLegal_iff] at ha ⊢
  bv_omega

theorem warmReset_legal {s : State} (hs : s.Legal) : (warmReset s).Legal := by
  obtain ⟨-, -, -, hmem, -⟩ := hs
  exact ⟨warmReset_pc s ▸ by decide, warmReset_isp s, warmReset_intbase s, hmem, rfl⟩

/-- The step boundary's sample touches none of the fields that legality speaks of. -/
theorem tick_legal {s : State} (hs : s.Legal) : s.tick.Legal := hs

theorem copyTrace_legal {s : State} (hs : s.Legal) : s.copyTrace.Legal := hs

theorem enter_legal {k : Exc} {s t : State} (hs : s.Legal) (h : enter k s = .next t) : t.Legal := by
  obtain ⟨-, hisp, hintbase, hmem, hcfg⟩ := hs
  obtain ⟨h4, eisp⟩ := enter_isp h
  obtain ⟨eintbase, ecfg, -⟩ := enter_keeps h
  exact ⟨enter_pcLegal h, eisp ▸ dedicatedLegal_sub_four hisp h4, eintbase ▸ hintbase, enter_wf h hmem, ecfg.trans hcfg⟩

theorem returnFromException_legal {s t : State} (hs : s.Legal) (h : returnFromException s = .next t) : t.Legal := by
  obtain ⟨-, hisp, hintbase, hmem, hcfg⟩ := hs
  obtain ⟨-, hpop, -, rfl⟩ := returnFromException_next.mp h
  exact ⟨pcLegal_ofCodePointer _, dedicatedLegal_add_four hisp hpop, hintbase, hmem, hcfg⟩

theorem writeProcReg_legal {s : State} (r : ProcReg) (v : Word) (hs : s.Legal) : (writeProcReg r v s).Legal := by
  obtain ⟨hpc, hisp, hintbase, hmem, hcfg⟩ := hs
  cases r with
  | psr => exact ⟨hpc, hisp, hintbase, hmem, hcfg⟩
  | intbase => exact ⟨hpc, hisp, dedicatedLegal_dedicatedOfWord v, hmem, hcfg⟩
  | isp => exact ⟨hpc, dedicatedLegal_dedicatedOfWord v, hintbase, hmem, hcfg⟩

/-- A legal state with another legal PC, and anything but ISP, INTBASE, memory and CFG changed, is legal. -/
theorem State.Legal.withPc {s t : State} (hs : s.Legal) (hpc : pcLegal t.pc) (hisp : t.isp = s.isp)
    (hintbase : t.intbase = s.intbase) (hmem : Memory.wf t.mem = true) (hcfg : t.cfg = s.cfg) : t.Legal := by
  obtain ⟨-, h1, h2, -, h3⟩ := hs
  exact ⟨hpc, hisp ▸ h1, hintbase ▸ h2, hmem, hcfg.trans h3⟩

/-- Every instruction keeps a state legal. -/
theorem exec_legal {i : Instr} {s t : State} (hs : s.Legal) (h : exec i s = .next t) : t.Legal := by
  have ⟨_, _, _, hmem, _⟩ := hs
  cases exec_effect h with
  | computed hregs hpsr hpc => exact hs.withPc hpc rfl rfl hmem rfl
  | waited => exact hs.withPc (pcLegal_nextPc _ _) rfl rfl hmem rfl
  | loadedProcReg src dest =>
    have hwritten := writeProcReg_legal dest (s.reg src) hs
    have ⟨_, _, _, hmem', _⟩ := hwritten
    exact hwritten.withPc (pcLegal_nextPc _ _) rfl rfl hmem' rfl
  | loaded hi he hregs hpc => exact hs.withPc hpc rfl rfl hmem rfl
  | stored hi he hwf hpc => exact hs.withPc hpc rfl rfl (hwf hmem) rfl
  | returned hi hret => exact returnFromException_legal hs hret
  | trapped hi hk hent => exact enter_legal hs hent

/-- Settles O54: each of the four things a step can be keeps a state legal. -/
theorem stepKeepsLegal : Obligations.StepKeepsLegal := by
  intro s t hs h
  have htick := tick_legal hs
  rcases step_next h with ⟨-, rfl⟩ | ⟨k, -, hent⟩ | ⟨-, rfl⟩ | ⟨-, i, -, hexec⟩
  · exact warmReset_legal htick
  · exact enter_legal htick hent
  · exact htick
  · exact exec_legal (copyTrace_legal htick) hexec

/-! ### The PC's arithmetic (`47_jumps.md` R216; D4, D17) -/

/-- Clearing bits 17 and 0, in numbers. -/
theorem pcForce_toNat (a : Addr) : (pcForce a).toNat = a.toNat % 2 ^ 17 / 2 * 2 := by
  have hbits : (pcForce a).toNat = _ := BitVec.toNat_append (0#1 ++ a.extractLsb' 1 16) 0#1
  simp only [BitVec.toNat_append, BitVec.extractLsb'_toNat, BitVec.toNat_ofNat, Nat.shiftLeft_eq,
    Nat.shiftRight_eq_div_pow, Nat.zero_mod, Nat.zero_mul, Nat.zero_or, Nat.or_zero] at hbits
  omega

/-- The target of a branch, in numbers: modulo 2^17, the lowest bit of the displacement cleared. -/
theorem branchTarget_toNat {pc : Addr} (hpc : pcLegal pc) (disp : Addr) :
    ((branchTarget pc disp).toNat : Int) = (pc.toNat + disp.toInt / 2 * 2) % 2 ^ 17 := by
  obtain ⟨hlt, heven⟩ := (pcLegal_iff pc).mp hpc
  rw [branchTarget, pcForce_toNat, BitVec.toNat_add, BitVec.toInt_eq_toNat_cond]
  split <;> omega

/-- The next instruction's address is a branch target. -/
theorem nextPc_eq_branchTarget (pc : Addr) (len : Nat) : nextPc pc len = branchTarget pc (BitVec.ofNat 18 len) := rfl

/-- A displacement with bit 0 clear is an even number. -/
theorem toInt_even_of_getLsbD_zero {d : BitVec 9} (h : d.getLsbD 0 = false) : d.toInt / 2 * 2 = d.toInt := by
  have heven : d.toNat % 2 = 0 := by simpa [BitVec.getLsbD, Nat.testBit_zero] using h
  rw [BitVec.toInt_eq_toNat_cond]
  split <;> omega

/-- Settles O42: each clause is the branch target in numbers, at its displacement. -/
theorem pcArithmetic : Obligations.PcArithmetic := by
  intro pc hpc
  refine ⟨?_, ?_, fun d hd => ?_, fun d => ?_⟩
  · have h : _ = ((pc.toNat : Int) + 2 / 2 * 2) % 2 ^ 17 := branchTarget_toNat hpc 2#18
    rw [nextPc_eq_branchTarget]
    omega
  · have h : _ = ((pc.toNat : Int) + 4 / 2 * 2) % 2 ^ 17 := branchTarget_toNat hpc 4#18
    rw [nextPc_eq_branchTarget]
    omega
  · rw [branchTarget_toNat hpc, dispValue, BitVec.toInt_signExtend_of_le (by decide), toInt_even_of_getLsbD_zero hd]
  · rw [branchTarget_toNat hpc, dispValue, BitVec.toInt_signExtend_of_le (by decide)]

/-! ### Who writes the general registers (`10_state.md` R22, R24) -/

theorem State.reg_of_regs {s t : State} (h : t.regs = s.regs) (r : Reg) : t.reg r = s.reg r :=
  congrArg (Regs.get · r) h

theorem writeProcReg_regs (r : ProcReg) (v : Word) (s : State) : (writeProcReg r v s).regs = s.regs := by
  cases r <;> rfl

/-- Settles O55: only `computed` and `loaded` write a register, the one the instruction names. -/
theorem onlyTheDestinationIsWritten : Obligations.OnlyTheDestinationIsWritten := by
  intro i s t h r hr
  cases exec_effect h with
  | computed hregs => exact hregs r hr
  | waited => rfl
  | loadedProcReg src dest => exact State.reg_of_regs (writeProcReg_regs dest _ s) r
  | loaded hi he hregs => exact hregs r hr
  | stored => rfl
  | returned hi hret => exact State.reg_of_regs (returnFromException_regs hret) r
  | trapped hi hk hent => exact State.reg_of_regs (enter_regs hent) r

/-! ### Who writes the PSR (`10_state.md` R30 to R39) -/

/-- What O56 says of an instruction that leaves the PSR `q` where it was `p`. -/
def PsrWritersNamed (i : Instr) (p q : Psr) : Prop :=
  (q.z ≠ p.z ∨ q.n ≠ p.n ∨ q.l ≠ p.l → compares i = true) ∧ (q.c ≠ p.c → addsOrSubtracts i = true) ∧
    (q.f ≠ p.f → addsOrSubtracts i = true ∨ ∃ o r, i = .tbit o r) ∧ (q.e ≠ p.e → i = .di ∨ i = .ei) ∧ q.i = p.i ∧
    (q.t ≠ p.t ∨ q.p ≠ p.p → entersTrap i = true)

theorem psrWritersNamed_of_effect {i : Instr} {p q : Psr} (h : PsrEffect p i q) : PsrWritersNamed i p q := by
  cases h with
  | kept => simp [PsrWritersNamed]
  | added hi => simp [PsrWritersNamed, Psr.withCarryOverflow, hi]
  | compared hi => simp [PsrWritersNamed, Psr.compared, hi]
  | tested hi => simp [PsrWritersNamed, Psr.withF, hi]
  | enabled hi => simp [PsrWritersNamed, hi]

theorem psrWritersNamed_of_trap {i : Instr} {k : Exc} (hi : entersTrap i = true) (hk : excIsInterrupt k = false) (p : Psr) :
    PsrWritersNamed i p (handlerPsr k p) := by
  simp [PsrWritersNamed, handlerPsr_of_trap hk, hi]

/-- Settles O56: what each effect can do to the PSR. -/
theorem whoWritesThePsr : Obligations.WhoWritesThePsr := by
  intro i s t h hload
  change PsrWritersNamed i s.psr t.psr
  cases exec_effect h with
  | computed hregs hpsr => exact psrWritersNamed_of_effect hpsr
  | waited => exact psrWritersNamed_of_effect .kept
  | loadedProcReg src dest hi =>
    subst hi
    cases dest with
    | psr => cases hload
    | intbase => exact psrWritersNamed_of_effect .kept
    | isp => exact psrWritersNamed_of_effect .kept
  | loaded => exact psrWritersNamed_of_effect .kept
  | stored => exact psrWritersNamed_of_effect .kept
  | returned hi =>
    subst hi
    cases hload
  | trapped hi hk hent =>
    rw [enter_psr hent]
    exact psrWritersNamed_of_trap hi hk s.psr

/-! ### Who writes memory (`10_state.md` R44, `20_memory.md` R60) -/

theorem writeProcReg_byteAt (r : ProcReg) (v : Word) (s : State) (a : Addr) :
    (writeProcReg r v s).byteAt a = s.byteAt a := by
  cases r <;> rfl

/-- Settles O57: all effects but `stored` and `trapped` leave every byte alone. -/
theorem whoWritesMemory : Obligations.WhoWritesMemory := by
  intro i s t h hstore htrap a
  cases exec_effect h with
  | computed => rfl
  | waited => rfl
  | loadedProcReg src dest => exact writeProcReg_byteAt dest _ s a
  | loaded => rfl
  | stored hi => exact absurd hi (Bool.eq_false_iff.mp hstore)
  | returned hi hret => exact returnFromException_byteAt hret a
  | trapped hi => exact absurd hi (Bool.eq_false_iff.mp htrap)

/-! ### Who writes the special registers and what devices see (`10_state.md` R28, R29, R52, `20_memory.md` R77) -/

/-- What LPR never changes. -/
theorem writeProcReg_keeps (r : ProcReg) (v : Word) (s : State) :
    (writeProcReg r v s).cfg = s.cfg ∧ (writeProcReg r v s).waiting = s.waiting ∧ (writeProcReg r v s).bus = s.bus ∧
      (writeProcReg r v s).memMap = s.memMap ∧ (writeProcReg r v s).inputs = s.inputs ∧
      (writeProcReg r v s).devices = s.devices ∧ (writeProcReg r v s).draws = s.draws := by
  cases r <;> exact ⟨rfl, rfl, rfl, rfl, rfl, rfl, rfl⟩

theorem referencesData_of_storesData {i : Instr} (h : storesData i = true) : referencesData i = true := by
  cases i with
  | storb | storw => rfl
  | _ => cases h

section special
variable {i : Instr} {s t : State}

theorem exec_intbase (h : exec i s = .next t) (hne : t.intbase ≠ s.intbase) : ∃ r, i = .lpr r .intbase := by
  cases exec_effect h with
  | computed | waited | loaded | stored => exact absurd rfl hne
  | loadedProcReg src dest hi =>
    cases dest with
    | psr | isp => exact absurd rfl hne
    | intbase => exact ⟨src, hi⟩
  | returned hi hret =>
    obtain ⟨hintbase, -⟩ := returnFromException_keeps hret
    exact absurd hintbase hne
  | trapped hi hk hent =>
    obtain ⟨hintbase, -⟩ := enter_keeps hent
    exact absurd hintbase hne

theorem exec_isp (h : exec i s = .next t) (hne : t.isp ≠ s.isp) :
    (∃ r, i = .lpr r .isp) ∨ i = .retx ∨ entersTrap i = true := by
  cases exec_effect h with
  | computed | waited | loaded | stored => exact absurd rfl hne
  | loadedProcReg src dest hi =>
    cases dest with
    | psr | intbase => exact absurd rfl hne
    | isp => exact .inl ⟨src, hi⟩
  | returned hi => exact .inr (.inl hi)
  | trapped hi => exact .inr (.inr hi)

theorem exec_waiting (h : exec i s = .next t) (hne : t.waiting ≠ s.waiting) : i = .wait ∨ entersTrap i = true := by
  cases exec_effect h with
  | computed | loaded | stored => exact absurd rfl hne
  | waited hi => exact .inl hi
  | loadedProcReg src dest =>
    obtain ⟨-, hwaiting, -⟩ := writeProcReg_keeps dest (s.reg src) s
    exact absurd hwaiting hne
  | returned hi hret =>
    obtain ⟨-, -, hwaiting, -⟩ := returnFromException_keeps hret
    exact absurd hwaiting hne
  | trapped hi => exact .inr hi

/-- An instruction makes no acknowledge cycle, and a device sees it only where it references data or takes a trap. -/
theorem exec_bus (h : exec i s = .next t) :
    ∃ seen, t.bus = seen ++ s.bus ∧ (∀ a : Addr, BusAccess.acknowledge a ∉ seen) ∧
      (seen ≠ [] → referencesData i = true ∨ entersTrap i = true) := by
  cases exec_effect h with
  | computed | waited => exact ⟨[], rfl, fun _ => List.not_mem_nil, fun hne => absurd rfl hne⟩
  | loadedProcReg src dest =>
    obtain ⟨-, -, hbus, -⟩ := writeProcReg_keeps dest (s.reg src) s
    exact ⟨[], hbus, fun _ => List.not_mem_nil, fun hne => absurd rfl hne⟩
  | @loaded e _ _ hi he =>
    exact ⟨e.seen s.memMap, rfl, fun a ha => he a ((BusAccess.mem_seen _ _ _).mp ha).1.symm, fun _ => .inl hi⟩
  | @stored e _ _ _ hi he =>
    exact ⟨e.seen s.memMap, rfl, fun a ha => he a ((BusAccess.mem_seen _ _ _).mp ha).1.symm,
      fun _ => .inl (referencesData_of_storesData hi)⟩
  | returned hi hret =>
    obtain ⟨seen, hbus, hack⟩ := returnFromException_bus hret
    exact ⟨seen, hbus, hack, fun _ => .inl (hi ▸ rfl)⟩
  | trapped hi hk hent =>
    obtain ⟨seen, hbus, hack⟩ := enter_bus_of_trap hk hent
    exact ⟨seen, hbus, hack, fun _ => .inr hi⟩

/-- CFG, the memory map, the inputs, what devices hold and the draw counter are not an instruction's to change. -/
theorem exec_keeps (h : exec i s = .next t) :
    t.cfg = s.cfg ∧ t.memMap = s.memMap ∧ t.inputs = s.inputs ∧ t.devices = s.devices ∧ t.draws = s.draws := by
  cases exec_effect h with
  | computed | waited | loaded | stored => exact ⟨rfl, rfl, rfl, rfl, rfl⟩
  | loadedProcReg src dest =>
    obtain ⟨hcfg, -, -, hplatform⟩ := writeProcReg_keeps dest (s.reg src) s
    exact ⟨hcfg, hplatform⟩
  | returned hi hret =>
    obtain ⟨-, hcfg, -, hplatform⟩ := returnFromException_keeps hret
    exact ⟨hcfg, hplatform⟩
  | trapped hi hk hent =>
    obtain ⟨-, hkeeps⟩ := enter_keeps hent
    exact hkeeps

end special

/-- Settles O58: the clauses for INTBASE, ISP, the waiting state and the bus, and what no instruction changes. -/
theorem whoWritesTheSpecialRegisters : Obligations.WhoWritesTheSpecialRegisters := by
  intro i s t h
  obtain ⟨hcfg, hplatform⟩ := exec_keeps h
  exact ⟨exec_intbase h, exec_isp h, hcfg, exec_waiting h, exec_bus h, hplatform⟩

/-! ### The state after power-up (`10_state.md` R53) -/

/-- Settles O23: each field of the reset state is the value the spec gives. -/
theorem resetState : Obligations.ResetState := by
  refine ⟨?pc, ?c, ?t, ?l, ?f, ?z, ?n, ?e, ?p, ?i, ?cfg, ?waiting⟩ <;> rfl

/-- Settles O53: the always-0 bits of the PC, ISP and INTBASE, the empty memory, and CFG. -/
theorem resetIsLegal : Obligations.ResetIsLegal :=
  ⟨⟨rfl, rfl⟩, ⟨rfl, rfl, rfl⟩, ⟨rfl, rfl, rfl⟩, reset_mem_wf, rfl⟩

end Sys2Proof.Machine

/-! PROOFS of the two statements of `20_memory.md` about stores and fetches: what a fetch can see (O12), and which instructions
serialize and what the others record (O59). -/

namespace Sys2Proof.Machine

/-! ### What a fetch sees (`20_memory.md` R79; D20, log 20) -/

/-- The bytes an address held are those recorded for it. -/
theorem mem_staleBytes {u : List Host.Cell} {a : Nat} {b : Byte} : b ∈ staleBytes u a ↔ (a, b) ∈ u := by
  simp [staleBytes]

/-- A free choice, reduced modulo the number of candidates, picks one of them. -/
theorem getD_mod_mem (b : Byte) (old : List Byte) (choice : Nat) :
    (b :: old).getD (choice % (old.length + 1)) b ∈ b :: old := by
  have hlt : choice % (old.length + 1) < (b :: old).length := Nat.mod_lt _ (Nat.succ_pos _)
  rw [List.getD_eq_getElem _ _ hlt]
  exact List.getElem_mem hlt

/-- A fetch sees the byte its address holds or one it held. -/
theorem fetchByte_mem (s : State) (a : Addr) :
    fetchByte s a ∈ s.byteAt a :: staleBytes s.unserialized a.toNat := by
  unfold fetchByte
  split
  · exact List.mem_cons_self
  · exact getD_mod_mem _ _ _

theorem fetchByte_eq_or_recorded (s : State) (a : Addr) :
    fetchByte s a = s.byteAt a ∨ (a.toNat, fetchByte s a) ∈ s.unserialized :=
  (List.mem_cons.mp (fetchByte_mem s a)).imp_right mem_staleBytes.mp

/-- Settles O12: a fetched byte is the present one or a recorded one, so the present one where none is recorded. -/
theorem fetchSeesOldOrNewBytes : Obligations.FetchSeesOldOrNewBytes := by
  intro s a
  have hfetch := fetchByte_eq_or_recorded s a
  exact ⟨hfetch, fun hnone => hfetch.resolve_right (hnone _)⟩

/-! ### What a store records (`20_memory.md` R78, R79; D20, log 20)

A store of several bytes is a composition of byte stores, so the record is shown for one byte and composed. -/

/-- Between two states, every changed byte is newly recorded with the byte it replaced, and no record is lost. -/
def RecordsChanges (s t : State) : Prop :=
  ∃ stored, t.unserialized = stored ++ s.unserialized ∧
    ∀ a : Addr, t.byteAt a ≠ s.byteAt a → (a.toNat, s.byteAt a) ∈ stored

theorem SameMemory.recordsChanges {s t : State} (h : SameMemory s t) : RecordsChanges s t := by
  obtain ⟨hbyte, hrecord⟩ := h
  exact ⟨[], hrecord, fun a hne => absurd (hbyte a) hne⟩

/-- A byte changed by the first part was recorded there; one changed by the second alone still held its first value. -/
theorem RecordsChanges.trans {s t u : State} (hst : RecordsChanges s t) (htu : RecordsChanges t u) :
    RecordsChanges s u := by
  obtain ⟨first, hfirst, hmem⟩ := hst
  obtain ⟨second, hsecond, hmem'⟩ := htu
  refine ⟨second ++ first, by rw [hsecond, hfirst, List.append_assoc], fun a hne => ?_⟩
  by_cases ht : t.byteAt a = s.byteAt a
  · have hsec := hmem' a (ht ▸ hne)
    exact List.mem_append_left first (ht ▸ hsec)
  · exact List.mem_append_right second (hmem a ht)

/-- Only a byte of memory changes, and its store is recorded. -/
theorem State.recordsChanges_putByte (s : State) (a : Addr) (v : Byte) (h : Memory.wf s.mem = true) :
    RecordsChanges s (s.putByte a v) := by
  cases hdev : isDevice s.memMap a with
  | true => exact SameMemory.recordsChanges ⟨fun k => by simp [State.byteAt_putByte s a k v h, hdev], by simp [hdev]⟩
  | false =>
    refine ⟨[(a.toNat, s.byteAt a)], by simp [hdev], fun k hne => ?_⟩
    have hk : k = a := by_contra fun hk => hne (State.byteAt_putByte_other s v h hk)
    exact hk ▸ List.mem_cons_self

theorem State.recordsChanges_putWord (s : State) (a : Addr) (v : Word) (h : Memory.wf s.mem = true) :
    RecordsChanges s (s.putWord a v) :=
  (State.recordsChanges_putByte s a _ h).trans (State.recordsChanges_putByte _ _ _ (State.wf_putByte s a _ h))

section stores
variable {r : Reg} {m : Mode} {s t : State}

/-- The access and the advance around a byte store touch neither memory nor the record. -/
theorem execStorb_recordsChanges (hs : Memory.wf s.mem = true) (h : execStorb r m s = .next t) : RecordsChanges s t := by
  obtain ⟨-, rfl⟩ := execStorb_next.mp h
  exact State.recordsChanges_putByte (s.access _) _ _ hs

theorem execStorw_recordsChanges (hs : Memory.wf s.mem = true) (h : execStorw r m s = .next t) : RecordsChanges s t := by
  obtain ⟨-, rfl⟩ := execStorw_next.mp h
  exact State.recordsChanges_putWord (s.access _) _ _ hs

theorem exec_recordsChanges_of_storesData {i : Instr} (hi : storesData i = true) (hs : Memory.wf s.mem = true)
    (h : exec i s = .next t) : RecordsChanges s t := by
  cases i with
  | storb => exact execStorb_recordsChanges hs h
  | storw => exact execStorw_recordsChanges hs h
  | _ => cases hi

end stores

/-! ### Which instructions serialize (`70_reset_and_hazards.md` R347) -/

section serializing
variable {i : Instr} {s t : State}

theorem enter_unserialized {k : Exc} (h : enter k s = .next t) : t.unserialized = [] := by
  obtain ⟨-, -, -, -, rfl⟩ := enter_next.mp h
  rfl

theorem returnFromException_unserialized (h : returnFromException s = .next t) : t.unserialized = [] := by
  obtain ⟨-, -, -, rfl⟩ := returnFromException_next.mp h
  rfl

theorem exec_unserialized_of_serializes (hi : serializes i = true) (h : exec i s = .next t) : t.unserialized = [] := by
  cases i with
  | lpr =>
    cases h
    rfl
  | retx => exact returnFromException_unserialized h
  | excp => exact enter_unserialized h
  | und => exact enter_unserialized (k := .und) h
  | _ => cases hi

theorem serializes_of_entersTrap (h : entersTrap i = true) : serializes i = true := by
  cases i with
  | excp | und => rfl
  | _ => cases h

/-- What does not serialize stores data or leaves memory and the record alone; either way no change goes unrecorded. -/
theorem exec_recordsChanges (hi : serializes i = false) (hs : Memory.wf s.mem = true) (h : exec i s = .next t) :
    RecordsChanges s t := by
  cases exec_effect h with
  | computed | waited | loaded => exact SameMemory.recordsChanges ⟨fun _ => rfl, rfl⟩
  | stored hstore => exact exec_recordsChanges_of_storesData hstore hs h
  | loadedProcReg _ _ hlpr =>
    subst hlpr
    cases hi
  | returned hretx =>
    subst hretx
    cases hi
  | trapped htrap => exact absurd (serializes_of_entersTrap htrap) (Bool.eq_false_iff.mp hi)

end serializing

/-- Settles O59: the serializing instructions empty the record, the others record what they change. -/
theorem serializingInstructions : Obligations.SerializingInstructions := by
  intro i s t hs h
  exact ⟨fun hi => exec_unserialized_of_serializes hi h, fun hi => exec_recordsChanges hi hs h⟩

end Sys2Proof.Machine

/-! PROOFS of the encoding statements of `30_encoding.md`, first part: a first word by its fields, and the words of Table A-2 and
of R119 by theirs. -/

namespace Sys2Proof

/-! ### Bit strings put together and taken apart -/

theorem exists_append {m n : Nat} (x : BitVec (m + n)) : ∃ (h : BitVec m) (l : BitVec n), x = h ++ l :=
  ⟨_, _, BitVec.extractLsb'_append_extractLsb'.symm⟩

theorem append_inj {m n : Nat} {h h' : BitVec m} {l l' : BitVec n} : h ++ l = h' ++ l' ↔ h = h' ∧ l = l' := by
  refine ⟨fun e => ⟨?_, ?_⟩, fun ⟨hh, hl⟩ => by rw [hh, hl]⟩
  · simpa only [BitVec.extractLsb'_append_eq_left] using congrArg (BitVec.extractLsb' n m) e
  · simpa only [BitVec.extractLsb'_append_eq_right] using congrArg (BitVec.extractLsb' 0 n) e

/-- Bits within a slice of a word are bits of the word. The slices the spec speaks of are so reduced to the fields of R92. -/
theorem extractLsb'_of_slice {w : Word} {start len : Nat} {v : BitVec len} (hv : w.extractLsb' start len = v) (s n : Nat)
    (h : s + n ≤ len) : w.extractLsb' (start + s) n = v.extractLsb' s n := by
  subst hv
  ext k hk
  simp [BitVec.getElem_extractLsb', Nat.add_assoc, show s + k < len by omega]

theorem getElem_of_slice {w : Word} {start len : Nat} {v : BitVec len} (hv : w.extractLsb' start len = v) (k : Nat)
    (h : k < len) (hw : start + k < 16) : w[start + k] = v[k] := by
  subst hv
  simp [BitVec.getElem_extractLsb', BitVec.getLsbD_eq_getElem hw]

/-! ### A first word and its fields (`30_encoding.md` R92) -/

theorem exists_packWord (w : Word) : ∃ op2 i f a b z, w = packWord op2 i f a b z :=
  ⟨_, _, _, _, _, _, (packWord_fields w).symm⟩

theorem word_eq_iff_fields (v w : Word) :
    v = w ↔ fieldOp2 v = fieldOp2 w ∧ fieldI v = fieldI w ∧ fieldF v = fieldF w ∧ fieldA v = fieldA w ∧
      fieldB v = fieldB w ∧ fieldZ v = fieldZ w := by
  refine ⟨fun h => h ▸ ⟨rfl, rfl, rfl, rfl, rfl, rfl⟩, fun ⟨hop2, hi, hf, ha, hb, hz⟩ => ?_⟩
  rw [← packWord_fields v, ← packWord_fields w, hop2, hi, hf, ha, hb, hz]

section packed
variable (op2 : BitVec 2) (i : BitVec 1) (f a b : BitVec 4) (z : BitVec 1)

/-! The slices of a first word that are no fields of their own. -/

@[simp] theorem fieldImm_packWord : fieldImm (packWord op2 i f a b z) = b ++ z := by
  apply BitVec.eq_of_getLsbD_eq
  intro k hk
  simp only [fieldImm, packWord, BitVec.getLsbD_extractLsb', BitVec.getLsbD_append]
  interval_cases k <;> simp

@[simp] theorem packWord_bits_1_8 : (packWord op2 i f a b z).extractLsb' 1 8 = a ++ b := by
  apply BitVec.eq_of_getLsbD_eq
  intro k hk
  simp only [packWord, BitVec.getLsbD_extractLsb', BitVec.getLsbD_append]
  interval_cases k <;> simp

@[simp] theorem packWord_bits_0_4 : (packWord op2 i f a b z).extractLsb' 0 4 = b.extractLsb' 0 3 ++ z := by
  apply BitVec.eq_of_getLsbD_eq
  intro k hk
  simp only [packWord, BitVec.getLsbD_extractLsb', BitVec.getLsbD_append]
  interval_cases k <;> simp

@[simp] theorem packWord_bits_14_2 : (packWord op2 i f a b z).extractLsb' 14 2 = op2 := fieldOp2_packWord ..
@[simp] theorem packWord_bits_13_1 : (packWord op2 i f a b z).extractLsb' 13 1 = i := fieldI_packWord ..
@[simp] theorem packWord_bits_9_4 : (packWord op2 i f a b z).extractLsb' 9 4 = f := fieldF_packWord ..
@[simp] theorem packWord_bits_5_4 : (packWord op2 i f a b z).extractLsb' 5 4 = a := fieldA_packWord ..
@[simp] theorem packWord_bits_1_4 : (packWord op2 i f a b z).extractLsb' 1 4 = b := fieldB_packWord ..
@[simp] theorem packWord_bits_0_1 : (packWord op2 i f a b z).extractLsb' 0 1 = z := fieldZ_packWord ..
@[simp] theorem packWord_bits_0_5 : (packWord op2 i f a b z).extractLsb' 0 5 = b ++ z := fieldImm_packWord ..
@[simp] theorem packWord_bits_11_2 : (packWord op2 i f a b z).extractLsb' 11 2 = f.extractLsb' 2 2 :=
  extractLsb'_of_slice (fieldF_packWord ..) 2 2 (by decide)
@[simp] theorem packWord_bits_10_3 : (packWord op2 i f a b z).extractLsb' 10 3 = f.extractLsb' 1 3 :=
  extractLsb'_of_slice (fieldF_packWord ..) 1 3 (by decide)
@[simp] theorem packWord_bits_9_2 : (packWord op2 i f a b z).extractLsb' 9 2 = f.extractLsb' 0 2 :=
  extractLsb'_of_slice (fieldF_packWord ..) 0 2 (by decide)
@[simp] theorem packWord_bits_6_3 : (packWord op2 i f a b z).extractLsb' 6 3 = a.extractLsb' 1 3 :=
  extractLsb'_of_slice (fieldA_packWord ..) 1 3 (by decide)
@[simp] theorem packWord_bits_4_1 : (packWord op2 i f a b z).extractLsb' 4 1 = b.extractLsb' 3 1 :=
  extractLsb'_of_slice (fieldB_packWord ..) 3 1 (by decide)
@[simp] theorem packWord_bits_1_3 : (packWord op2 i f a b z).extractLsb' 1 3 = b.extractLsb' 0 3 :=
  extractLsb'_of_slice (fieldB_packWord ..) 0 3 (by decide)
@[simp] theorem packWord_bit_15 : (packWord op2 i f a b z)[15] = op2[1] :=
  getElem_of_slice (fieldOp2_packWord ..) 1 (by decide) (by decide)
@[simp] theorem packWord_bit_13 : (packWord op2 i f a b z)[13] = i[0] :=
  getElem_of_slice (fieldI_packWord ..) 0 (by decide) (by decide)
@[simp] theorem packWord_bit_12 : (packWord op2 i f a b z)[12] = f[3] :=
  getElem_of_slice (fieldF_packWord ..) 3 (by decide) (by decide)
@[simp] theorem packWord_bit_11 : (packWord op2 i f a b z)[11] = f[2] :=
  getElem_of_slice (fieldF_packWord ..) 2 (by decide) (by decide)
@[simp] theorem packWord_bit_0 : (packWord op2 i f a b z)[0] = z[0] :=
  getElem_of_slice (fieldZ_packWord ..) 0 (by decide) (by decide)

/-- A pattern is matched field by field. -/
@[simp] theorem Pattern.holds_packWord (p : Pattern) :
    p.holds (packWord op2 i f a b z) = decide (
      op2 &&& p.mask.extractLsb' 14 2 = p.bits.extractLsb' 14 2 ∧ i &&& p.mask.extractLsb' 13 1 = p.bits.extractLsb' 13 1 ∧
        f &&& p.mask.extractLsb' 9 4 = p.bits.extractLsb' 9 4 ∧ a &&& p.mask.extractLsb' 5 4 = p.bits.extractLsb' 5 4 ∧
        b &&& p.mask.extractLsb' 1 4 = p.bits.extractLsb' 1 4 ∧ z &&& p.mask.extractLsb' 0 1 = p.bits.extractLsb' 0 1) := by
  rw [Bool.eq_iff_iff, decide_eq_true_iff, Pattern.holds, beq_iff_eq, word_eq_iff_fields]
  simp only [fieldOp2, fieldI, fieldF, fieldA, fieldB, fieldZ, BitVec.extractLsb'_and, packWord_bits_14_2,
    packWord_bits_13_1, packWord_bits_9_4, packWord_bits_5_4, packWord_bits_1_4, packWord_bits_0_1]

end packed

theorem getElem_zero_eq_true_iff (x : BitVec 1) : x[0] = true ↔ x = 1#1 := by
  revert x
  decide

theorem getElem_zero_eq_false_iff (x : BitVec 1) : x[0] = false ↔ x = 0#1 := by
  revert x
  decide

/-! ### The words without a meaning, field by field (`30_encoding.md` R117, R119) -/

@[simp] theorem and_ones_one (x : BitVec 1) : x &&& 1#1 = x := BitVec.and_allOnes
@[simp] theorem and_ones_two (x : BitVec 2) : x &&& 3#2 = x := BitVec.and_allOnes
@[simp] theorem and_ones_four (x : BitVec 4) : x &&& 15#4 = x := BitVec.and_allOnes

/-- A mask of the upper two, the upper three or the lower three bits of a field compares that part of the field. -/
theorem masked_field_iff (x : BitVec 4) :
    (x &&& 12#4 = 0#4 ↔ x.extractLsb' 2 2 = 0#2) ∧ (x &&& 14#4 = 10#4 ↔ x.extractLsb' 1 3 = 5#3) ∧
      (x &&& 14#4 = 14#4 ↔ x.extractLsb' 1 3 = 7#3) ∧ (x &&& 7#4 = 7#4 ↔ x.extractLsb' 0 3 = 7#3) := by
  revert x
  decide

/-- The op codes of LPR and SPR, 1000 and 1001. -/
theorem code_eight_or_nine_iff (x : BitVec 4) : x.extractLsb' 1 3 = 0b100#3 ↔ x = 0b1000#4 ∨ x = 0b1001#4 := by
  revert x
  decide

/-- The constant fields of RETX, EI and WAIT, and those of DI. -/
theorem append_eq_literal_iff (a b : BitVec 4) :
    (a ++ b = 0b11111111#8 ↔ a = 0b1111#4 ∧ b = 0b1111#4) ∧ (a ++ b = 0b11101111#8 ↔ a = 0b1110#4 ∧ b = 0b1111#4) :=
  ⟨append_inj (h' := 0b1111#4) (l' := 0b1111#4), append_inj (h' := 0b1110#4) (l' := 0b1111#4)⟩

/-- The op codes of format SP in Table A-2 (`30_encoding.md` R117). -/
def SpUndefined (f : BitVec 4) : Prop := f = 0b0110#4 ∨ f.extractLsb' 2 2 = 0b00#2 ∨ f.extractLsb' 1 3 = 0b101#3

/-- The fields of the words of format SP in R119 (`30_encoding.md` R119). -/
def SpUnspecified (f a b : BitVec 4) : Prop :=
  (f = 0b0111#4 ∧ a.extractLsb' 1 3 = 0b111#3) ∨
    (f.extractLsb' 1 3 = 0b100#3 ∧ a ≠ 0b0001#4 ∧ a ≠ 0b0011#4 ∧ a ≠ 0b1011#4) ∨
    (f = 0b1100#4 ∧ a ++ b ≠ 0b11111111#8) ∨
    (f = 0b1101#4 ∧ a ≠ 0b1111#4) ∨
    (f = 0b1110#4 ∧ a ++ b ≠ 0b11101111#8 ∧ a ++ b ≠ 0b11111111#8) ∨
    (f = 0b1111#4 ∧ a ++ b ≠ 0b11111111#8)

section families
variable (op2 : BitVec 2) (i : BitVec 1) (f a b : BitVec 4) (z : BitVec 1)

theorem isUndefinedWord_immediate :
    isUndefinedWord (packWord 0b00#2 i f a b z) = true ↔
      (i = 0#1 ∧ f = 0b1011#4) ∨ (f = 0b1010#4 ∧ z = 1#1) ∨ f = 0b0010#4 := by
  simp [isUndefinedWord, undefinedPatterns]

theorem isUndefinedWord_register :
    isUndefinedWord (packWord 0b01#2 i f a b 1#1) = true ↔ f = 0b0010#4 ∨ (i = 0#1 ∧ f = 0b1011#4) := by
  simp [isUndefinedWord, undefinedPatterns]

theorem isUndefinedWord_branchShort : isUndefinedWord (packWord 0b01#2 0#1 f a b 0#1) = false := by
  simp [isUndefinedWord, undefinedPatterns]

theorem isUndefinedWord_special : isUndefinedWord (packWord 0b01#2 1#1 f a b 0#1) = true ↔ SpUndefined f := by
  obtain ⟨hupper2, hupper3, -, -⟩ := masked_field_iff f
  simp [isUndefinedWord, undefinedPatterns, SpUndefined, hupper2, hupper3]

theorem isUndefinedWord_loadStore (h : op2 = 0b10#2 ∨ op2 = 0b11#2) : isUndefinedWord (packWord op2 i f a b z) = false := by
  rcases h with rfl | rfl <;> simp [isUndefinedWord, undefinedPatterns]

theorem isUnspecifiedWord_immediate :
    isUnspecifiedWord (packWord 0b00#2 i f a b z) = true ↔
      f = 0b1010#4 ∧ z = 0#1 ∧ (b.extractLsb' 0 3 ≠ 0b111#3 ∨ (i = 0#1 ∧ a = 0b1111#4)) := by
  obtain ⟨-, -, -, hlow⟩ := masked_field_iff b
  rcases BitVec.eq_zero_or_eq_one z with rfl | rfl
  · by_cases hf : f = 0b1010#4
    · subst hf
      by_cases hb : b.extractLsb' 0 3 = 0b111#3 <;>
        simp [isUnspecifiedWord, unspecifiedPatterns, mediumCond15,
          hlow, hb]
    · simp [isUnspecifiedWord, unspecifiedPatterns, mediumCond15, hf]
  · simp [isUnspecifiedWord, unspecifiedPatterns, mediumCond15]

theorem isUnspecifiedWord_register :
    isUnspecifiedWord (packWord 0b01#2 i f a b 1#1) = true ↔ i = 0#1 ∧ f = 0b1010#4 ∧ a = 0b1111#4 := by
  simp [isUnspecifiedWord, unspecifiedPatterns, mediumCond15]

theorem isUnspecifiedWord_branchShort : isUnspecifiedWord (packWord 0b01#2 0#1 f a b 0#1) = true ↔ a = 0b1111#4 := by
  simp [isUnspecifiedWord, unspecifiedPatterns, mediumCond15]

/-- Each op code of format SP has at most one row of R119, and LPR and SPR have one between them. -/
theorem isUnspecifiedWord_special : isUnspecifiedWord (packWord 0b01#2 1#1 f a b 0#1) = true ↔ SpUnspecified f a b := by
  obtain ⟨-, -, hcond, -⟩ := masked_field_iff a
  obtain ⟨hones, hdi⟩ := append_eq_literal_iff a b
  by_cases hf : f = 0b0111#4 ∨ f = 0b1000#4 ∨ f = 0b1001#4 ∨ f = 0b1100#4 ∨ f = 0b1101#4 ∨ f = 0b1110#4 ∨ f = 0b1111#4
  · rcases hf with rfl | rfl | rfl | rfl | rfl | rfl | rfl <;>
      simp [isUnspecifiedWord, unspecifiedPatterns, mediumCond15, SpUnspecified, hcond, hones, hdi, imp_iff_not_or]
  · obtain ⟨h7, h8, h9, h12, h13, h14, h15⟩ := by simpa only [not_or] using hf
    simp [isUnspecifiedWord, unspecifiedPatterns, mediumCond15, SpUnspecified, code_eight_or_nine_iff, *]

theorem isUnspecifiedWord_loadStore (h : op2 = 0b10#2 ∨ op2 = 0b11#2) :
    isUnspecifiedWord (packWord op2 i f a b z) = false := by
  rcases h with rfl | rfl <;> simp [isUnspecifiedWord, unspecifiedPatterns, mediumCond15]

end families

/-! ### The families of first words (`30_encoding.md` R94 to R115) -/

/-- A first word by its formats: IS, IM, BR-M and BAL; RR, J and JAL; BR-S; SP; LS. -/
inductive WordFamily : Word → Prop
  | immediate (i : BitVec 1) (f a b : BitVec 4) (z : BitVec 1) : WordFamily (packWord 0b00#2 i f a b z)
  | register (i : BitVec 1) (f a b : BitVec 4) : WordFamily (packWord 0b01#2 i f a b 1#1)
  | branchShort (f a b : BitVec 4) : WordFamily (packWord 0b01#2 0#1 f a b 0#1)
  | special (f a b : BitVec 4) : WordFamily (packWord 0b01#2 1#1 f a b 0#1)
  | loadStore (op2 : BitVec 2) (i : BitVec 1) (f a b : BitVec 4) (z : BitVec 1) (h : op2 = 0b10#2 ∨ op2 = 0b11#2) :
      WordFamily (packWord op2 i f a b z)

/-- Every instruction but UND and UNSPECIFIED: those the formats of R94 to R115 define (`30_encoding.md` R116). -/
def Instr.isDefined : Instr → Bool
  | .und _ => false
  | .unspecified _ => false
  | _ => true

theorem op2_cases (op2 : BitVec 2) : op2 = 0b00#2 ∨ op2 = 0b01#2 ∨ op2 = 0b10#2 ∨ op2 = 0b11#2 := by
  revert op2
  decide

theorem wordFamily (w : Word) : WordFamily w := by
  obtain ⟨op2, i, f, a, b, z, rfl⟩ := exists_packWord w
  rcases op2_cases op2 with rfl | rfl | hls
  · exact .immediate i f a b z
  · rcases BitVec.eq_zero_or_eq_one z with rfl | rfl
    · rcases BitVec.eq_zero_or_eq_one i with rfl | rfl
      · exact .branchShort f a b
      · exact .special f a b
    · exact .register i f a b
  · exact .loadStore op2 i f a b z hls

/-! ### The codes that select an instruction (`30_encoding.md` R97, R110, R114, `43_logical.md` R178) -/

section codes
variable {i : BitVec 1} {f c : BitVec 4} {src : Src} {disp : Disp} {r : Reg} {j : Instr}

/-- Only ADDUB has a word taken away from it, by NOP (`30_encoding.md` R122; log 32). -/
theorem decodeAlu_some (h : decodeAlu i f src r = some j) :
    encode j = encodeAlu i f r src ∧
      (j.wellFormed = true ↔ src.wellFormed = true ∧ ¬(i = 0#1 ∧ f = 0b0001#4 ∧ src = .short 0#5 ∧ r = .r0)) ∧
      j.isDefined = true := by
  unfold decodeAlu at h
  split at h <;> cases h <;> exact ⟨rfl, by simp [Instr.wellFormed, imp_iff_not_or], rfl⟩

theorem decodeBranch_some (h : decodeBranch c disp = some j) :
    encode j = encodeBranch c disp ∧ j.wellFormed = disp.wellFormed ∧ j.isDefined = true := by
  unfold decodeBranch at h
  split at h <;> cases h <;> exact ⟨rfl, rfl, rfl⟩

theorem decodeJump_some (h : decodeJump c r = some j) :
    encode j = encodeJump 0#1 c r ∧ j.wellFormed = true ∧ j.isDefined = true := by
  unfold decodeJump at h
  split at h <;> cases h <;> exact ⟨rfl, rfl, rfl⟩

theorem decodeScond_some (h : decodeScond c r = some j) :
    encode j = encodeSp 0b0111#4 c r.code ∧ j.wellFormed = true ∧ j.isDefined = true := by
  unfold decodeScond at h
  split at h <;> cases h <;> exact ⟨rfl, rfl, rfl⟩

theorem decodeAlu_eq_none_iff :
    decodeAlu i f src r = none ↔ f = 0b0010#4 ∨ f = 0b1010#4 ∨ (i = 0#1 ∧ f = 0b1011#4) := by
  obtain ⟨f⟩ := f
  rcases BitVec.eq_zero_or_eq_one i with rfl | rfl <;> fin_cases f <;> simp [decodeAlu]

theorem decodeBranch_eq_none_iff : decodeBranch c disp = none ↔ c = 0b1111#4 := by
  obtain ⟨c⟩ := c
  fin_cases c <;> simp [decodeBranch]

theorem decodeJump_eq_none_iff : decodeJump c r = none ↔ c = 0b1111#4 := by
  obtain ⟨c⟩ := c
  fin_cases c <;> simp [decodeJump]

theorem code_fourteen_or_fifteen_iff : c.extractLsb' 1 3 = 0b111#3 ↔ c = 0b1110#4 ∨ c = 0b1111#4 := by
  revert c
  decide

theorem decodeScond_eq_none_iff : decodeScond c r = none ↔ c.extractLsb' 1 3 = 0b111#3 := by
  rw [code_fourteen_or_fifteen_iff]
  obtain ⟨c⟩ := c
  fin_cases c <;> simp [decodeScond]

theorem ProcReg.ofCode_eq_none_iff : ProcReg.ofCode c = none ↔ c ≠ 0b0001#4 ∧ c ≠ 0b0011#4 ∧ c ≠ 0b1011#4 := by
  revert c
  decide

theorem ProcReg.code_of_ofCode {p : ProcReg} (h : ProcReg.ofCode c = some p) : p.code = c := by
  revert c p
  decide

end codes

/-! ### The length of an instruction (`30_encoding.md` R91) -/

/-- The bits 3..0 that mark a medium branch or BAL (`30_encoding.md` R112). -/
theorem append_eq_mediumBranch_iff (x : BitVec 3) (z : BitVec 1) : x ++ z = 0b1110#4 ↔ x = 0b111#3 ∧ z = 0#1 :=
  append_inj (h' := 0b111#3) (l' := 0#1)

/-- The short immediate that is the escape to format IM (`30_encoding.md` R95). -/
theorem append_eq_escape_iff (b : BitVec 4) (z : BitVec 1) : b ++ z = 0b10001#5 ↔ b = 0b1000#4 ∧ z = 1#1 :=
  append_inj (h' := 0b1000#4) (l' := 1#1)

section packed
variable (i : BitVec 1) (f a b : BitVec 4) (z : BitVec 1)

theorem isLong_immediate :
    isLong (packWord 0b00#2 i f a b z) = true ↔
      (f = 0b1010#4 ∧ b.extractLsb' 0 3 = 0b111#3 ∧ z = 0#1) ∨
        (f ≠ 0b1010#4 ∧ f ≠ 0b0010#4 ∧ ¬(f = 0b1011#4 ∧ i = 0#1) ∧ b = 0b1000#4 ∧ z = 1#1) := by
  by_cases hf : f = 0b1010#4
  · simp [isLong, hf, append_eq_mediumBranch_iff]
  · simp [isLong, hf, append_eq_escape_iff, and_assoc, imp_iff_not_or]

theorem isLong_op2_one : isLong (packWord 0b01#2 i f a b z) = false := by
  simp [isLong]

theorem isLong_loadStore {op2 : BitVec 2} (h : op2 = 0b10#2 ∨ op2 = 0b11#2) :
    isLong (packWord op2 i f a b z) = (f[3] && z[0]) := by
  rcases h with rfl | rfl <;> simp [isLong]

end packed

/-- Settles O3: the three cases of R91, family by family. -/
theorem secondWordByFirstWord : Obligations.SecondWordByFirstWord := by
  intro w
  cases wordFamily w with
  | immediate i f a b z =>
    by_cases hf : f = 0b1010#4
    · simp [isLong_immediate, append_eq_mediumBranch_iff, hf]
    · simp [isLong_immediate, append_eq_escape_iff, getElem_zero_eq_false_iff, hf, imp_iff_not_or]
  | register | branchShort | special => simp [isLong_op2_one]
  | loadStore op2 i f a b z h => rcases h with rfl | rfl <;> simp [isLong_loadStore]

end Sys2Proof

/-! PROOFS of the encoding statements, second part: what the decoder does on each family of first words. -/

namespace Sys2Proof

/-! ### The decoder, family by family (`30_encoding.md` R116) -/

section packed
variable {i : BitVec 1} {f a b : BitVec 4} {z : BitVec 1} {w2 : Word}

theorem decodeDefined_nop : decodeDefined 0x0200#16 w2 = some .nop := rfl

/-- NOP's word is that of ADDUB with a short immediate 0 and R0 (`30_encoding.md` R122; log 32). -/
theorem packWord_eq_nop_iff :
    packWord 0b00#2 i f a b z = 0x0200#16 ↔ i = 0#1 ∧ f = 0b0001#4 ∧ a = 0#4 ∧ b = 0#4 ∧ z = 0#1 := by
  simp [word_eq_iff_fields, fieldOp2, fieldI, fieldF, fieldA, fieldB, fieldZ]

theorem decodeDefined_immediate (hnop : packWord 0b00#2 i f a b z ≠ 0x0200#16) (hf : f ≠ 0b1010#4) :
    decodeDefined (packWord 0b00#2 i f a b z) w2 =
      decodeAlu i f (if b ++ z = 0b10001#5 then .medium w2 else .short (b ++ z)) (Reg.ofCode a) := by
  simp [decodeDefined, hnop, hf]

theorem decodeDefined_mediumBranch (h : b.extractLsb' 0 3 = 0b111#3) :
    decodeDefined (packWord 0b00#2 0#1 0b1010#4 a b 0#1) w2 = decodeBranch a (.medium (b.extractLsb' 3 1 ++ w2)) := by
  simp [decodeDefined, packWord_eq_nop_iff, h]

theorem decodeDefined_bal (h : b.extractLsb' 0 3 = 0b111#3) :
    decodeDefined (packWord 0b00#2 1#1 0b1010#4 a b 0#1) w2 = some (.bal (Reg.ofCode a) (b.extractLsb' 3 1 ++ w2)) := by
  simp [decodeDefined, packWord_eq_nop_iff, h]

theorem decodeDefined_noBranch (h : ¬(b.extractLsb' 0 3 = 0b111#3 ∧ z = 0#1)) :
    decodeDefined (packWord 0b00#2 i 0b1010#4 a b z) w2 = none := by
  have hlow : ¬(b.extractLsb' 0 3 ++ z = 0b1110#4) := mt (append_eq_mediumBranch_iff _ z).mp h
  simp [decodeDefined, packWord_eq_nop_iff, hlow]

theorem decodeDefined_register (hf : f ≠ 0b1010#4) :
    decodeDefined (packWord 0b01#2 i f a b 1#1) w2 = decodeAlu i f (.reg (Reg.ofCode b)) (Reg.ofCode a) := by
  simp [decodeDefined, hf]

theorem decodeDefined_jump :
    decodeDefined (packWord 0b01#2 0#1 0b1010#4 a b 1#1) w2 = decodeJump a (Reg.ofCode b) := by
  simp [decodeDefined]

theorem decodeDefined_jal :
    decodeDefined (packWord 0b01#2 1#1 0b1010#4 a b 1#1) w2 = some (.jal (Reg.ofCode a) (Reg.ofCode b)) := by
  simp [decodeDefined]

theorem decodeDefined_branchShort :
    decodeDefined (packWord 0b01#2 0#1 f a b 0#1) w2 = decodeBranch a (.short (f ++ (b ++ 0#1))) := by
  simp [decodeDefined]

theorem decodeDefined_special :
    decodeDefined (packWord 0b01#2 1#1 f a b 0#1) w2 = decodeSp (packWord 0b01#2 1#1 f a b 0#1) := by
  simp [decodeDefined]

theorem decodeDefined_loadb : decodeDefined (packWord 0b10#2 0#1 f a b z) w2 =
    some (.loadb (decodeMode (packWord 0b10#2 0#1 f a b z) w2) (Reg.ofCode a)) := by
  simp [decodeDefined]

theorem decodeDefined_loadw : decodeDefined (packWord 0b10#2 1#1 f a b z) w2 =
    some (.loadw (decodeMode (packWord 0b10#2 1#1 f a b z) w2) (Reg.ofCode a)) := by
  simp [decodeDefined]

theorem decodeDefined_storb : decodeDefined (packWord 0b11#2 0#1 f a b z) w2 =
    some (.storb (Reg.ofCode a) (decodeMode (packWord 0b11#2 0#1 f a b z) w2)) := by
  simp [decodeDefined]

theorem decodeDefined_storw : decodeDefined (packWord 0b11#2 1#1 f a b z) w2 =
    some (.storw (Reg.ofCode a) (decodeMode (packWord 0b11#2 1#1 f a b z) w2)) := by
  simp [decodeDefined]

/-! ### Format SP (`30_encoding.md` R98, R99) -/

/-- The decoder's own cases of the op code of format SP, and no other. -/
theorem spUndefined_iff (f : BitVec 4) :
    SpUndefined f ↔ f ≠ 0b0100#4 ∧ f ≠ 0b0101#4 ∧ f ≠ 0b0111#4 ∧ f ≠ 0b1000#4 ∧ f ≠ 0b1001#4 ∧ f ≠ 0b1100#4 ∧
      f ≠ 0b1101#4 ∧ f ≠ 0b1110#4 ∧ f ≠ 0b1111#4 := by
  revert f
  unfold SpUndefined
  decide

theorem ite_some_eq_none_iff {α : Type} (p : Prop) [Decidable p] (x : α) (y : Option α) :
    (if p then some x else y) = none ↔ ¬p ∧ y = none := by
  split <;> simp [*]

/-- A word of format SP that the decoder does not define is in Table A-2 or in R119. -/
theorem decodeSp_eq_none_iff :
    decodeSp (packWord 0b01#2 1#1 f a b 0#1) = none ↔ SpUndefined f ∨ SpUnspecified f a b := by
  obtain ⟨hones, hdi⟩ := append_eq_literal_iff a b
  rw [spUndefined_iff, decodeSp, fieldF_packWord]
  split <;>
    simp_all [SpUnspecified, code_eight_or_nine_iff, decodeScond_eq_none_iff, ProcReg.ofCode_eq_none_iff,
      ite_some_eq_none_iff]

theorem not_spUndefined_of_spUnspecified (h : SpUnspecified f a b) : ¬SpUndefined f := by
  unfold SpUnspecified at h
  rw [code_eight_or_nine_iff] at h
  rw [spUndefined_iff]
  rcases h with ⟨rfl, -⟩ | ⟨rfl | rfl, -⟩ | ⟨rfl, -⟩ | ⟨rfl, -⟩ | ⟨rfl, -⟩ | ⟨rfl, -⟩ <;> decide

end packed

/-! ### The words without a meaning are those of R117 and R119, and no word is in both -/

theorem decodeDefined_ne_none_of_loadStore (w w2 : Word) (h : fieldOp2 w = 0b10#2 ∨ fieldOp2 w = 0b11#2) :
    decodeDefined w w2 ≠ none := by
  unfold decodeDefined
  rcases h with h | h <;> simp [h, ite_some_eq_none_iff]

theorem decodeDefined_eq_none_iff (w w2 : Word) :
    decodeDefined w w2 = none ↔ isUndefinedWord w = true ∨ isUnspecifiedWord w = true := by
  cases wordFamily w with
  | immediate i f a b z =>
    rw [isUndefinedWord_immediate, isUnspecifiedWord_immediate]
    by_cases hnop : packWord 0b00#2 i f a b z = 0x0200#16
    · obtain ⟨-, hf, -⟩ := packWord_eq_nop_iff.mp hnop
      rw [hnop, decodeDefined_nop]
      simp [hf]
    · by_cases hf : f = 0b1010#4
      · subst hf
        by_cases hlow : b.extractLsb' 0 3 = 0b111#3 ∧ z = 0#1
        · obtain ⟨hb, rfl⟩ := hlow
          rcases BitVec.eq_zero_or_eq_one i with rfl | rfl
          · simp [decodeDefined_mediumBranch hb, decodeBranch_eq_none_iff, hb]
          · simp [decodeDefined_bal hb, hb]
        · rcases BitVec.eq_zero_or_eq_one z with rfl | rfl <;> simp_all [decodeDefined_noBranch hlow]
      · simp [decodeDefined_immediate hnop hf, decodeAlu_eq_none_iff, hf, or_comm]
  | register i f a b =>
    rw [isUndefinedWord_register, isUnspecifiedWord_register]
    by_cases hf : f = 0b1010#4
    · subst hf
      rcases BitVec.eq_zero_or_eq_one i with rfl | rfl
      · simp [decodeDefined_jump, decodeJump_eq_none_iff]
      · simp [decodeDefined_jal]
    · simp [decodeDefined_register hf, decodeAlu_eq_none_iff, hf]
  | branchShort f a b =>
    simp [decodeDefined_branchShort, decodeBranch_eq_none_iff, isUndefinedWord_branchShort, isUnspecifiedWord_branchShort]
  | special f a b =>
    rw [decodeDefined_special, decodeSp_eq_none_iff, isUndefinedWord_special, isUnspecifiedWord_special]
  | loadStore op2 i f a b z h =>
    have hdefined : decodeDefined (packWord op2 i f a b z) w2 ≠ none :=
      decodeDefined_ne_none_of_loadStore _ _ (by simpa using h)
    simp [hdefined, isUndefinedWord_loadStore op2 i f a b z h, isUnspecifiedWord_loadStore op2 i f a b z h]

theorem isUnspecifiedWord_of_isUndefinedWord {w : Word} (h : isUndefinedWord w = true) : isUnspecifiedWord w = false := by
  rw [Bool.eq_false_iff]
  intro hu
  cases wordFamily w with
  | immediate i f a b z =>
    obtain ⟨rfl, rfl, -⟩ := (isUnspecifiedWord_immediate i f a b z).mp hu
    simp [isUndefinedWord_immediate] at h
  | register i f a b =>
    obtain ⟨rfl, rfl, -⟩ := (isUnspecifiedWord_register i f a b).mp hu
    simp [isUndefinedWord_register] at h
  | branchShort f a b => simp [isUndefinedWord_branchShort] at h
  | special f a b =>
    exact not_spUndefined_of_spUnspecified ((isUnspecifiedWord_special f a b).mp hu) ((isUndefinedWord_special f a b).mp h)
  | loadStore op2 i f a b z hop2 => simp [isUndefinedWord_loadStore op2 i f a b z hop2] at h

end Sys2Proof

/-! PROOFS of the encoding statements, third part: encoding what was decoded gives the words back (O2). -/

namespace Sys2Proof

/-! ### The encoder, word by word -/

section packed
variable (i : BitVec 1) (f a b : BitVec 4) (z : BitVec 1) (r r' : Reg) (w2 : Word)

/-- Bits 4..0 of a word are the field of operand 1 and bit 0. -/
theorem append_low_eq_packWord (op2 : BitVec 2) : op2 ++ i ++ f ++ a ++ (b ++ z) = packWord op2 i f a b z := by
  apply BitVec.eq_of_getLsbD_eq
  intro k hk
  simp only [packWord, BitVec.getLsbD_append]
  interval_cases k <;> simp

/-- Bit 4 of a medium branch or BAL is bit 16 of its displacement. -/
theorem mediumBranch_eq_packWord (d : BitVec 1) :
    (0b00#2 ++ i ++ 0b1010#4 ++ a ++ d ++ 0b1110#4 : Word) = packWord 0b00#2 i 0b1010#4 a (d ++ 0b111#3) 0#1 := by
  apply BitVec.eq_of_getLsbD_eq
  intro k hk
  simp only [packWord, BitVec.getLsbD_append]
  interval_cases k <;> simp

theorem encodeAlu_short : encodeAlu i f r (.short (b ++ z)) = [packWord 0b00#2 i f r.code b z] :=
  congrArg (fun w => [w]) (append_low_eq_packWord i f r.code b z 0b00#2)

theorem encodeAlu_medium : encodeAlu i f r (.medium w2) = [packWord 0b00#2 i f r.code 0b1000#4 1#1, w2] :=
  congrArg (fun w => [w, w2]) (append_low_eq_packWord i f r.code 0b1000#4 1#1 0b00#2)

theorem encodeBranch_short : encodeBranch a (.short (f ++ (b ++ z))) = [packWord 0b01#2 0#1 f a b z] := by
  rw [encodeBranch, BitVec.extractLsb'_append_eq_left, BitVec.extractLsb'_append_eq_right, append_low_eq_packWord]

theorem encodeBranch_medium (d : BitVec 1) :
    encodeBranch a (.medium (d ++ w2)) = [packWord 0b00#2 0#1 0b1010#4 a (d ++ 0b111#3) 0#1, w2] := by
  rw [encodeBranch, BitVec.extractLsb'_append_eq_left, BitVec.extractLsb'_append_eq_right, mediumBranch_eq_packWord]

theorem encode_bal (d : BitVec 1) :
    encode (.bal r (d ++ w2)) = [packWord 0b00#2 1#1 0b1010#4 r.code (d ++ 0b111#3) 0#1, w2] := by
  rw [encode, BitVec.extractLsb'_append_eq_left, BitVec.extractLsb'_append_eq_right, mediumBranch_eq_packWord]

theorem encodeLoadStore_relShort (op2 : BitVec 2) :
    encodeLoadStore op2 i r (.relShort r' (f ++ z)) = [packWord op2 i f r.code r'.code z] := by
  rw [encodeLoadStore, BitVec.extractLsb'_append_eq_left, BitVec.extractLsb'_append_eq_right]

theorem encodeLoadStore_relMedium (op2 d : BitVec 2) :
    encodeLoadStore op2 i r (.relMedium r' (d ++ w2)) = [packWord op2 i (0b10#2 ++ d) r.code r'.code 1#1, w2] := by
  rw [encodeLoadStore, BitVec.extractLsb'_append_eq_left, BitVec.extractLsb'_append_eq_right]

theorem encodeLoadStore_farRel (op2 d : BitVec 2) :
    encodeLoadStore op2 i r (.farRel r' (d ++ w2)) = [packWord op2 i (0b11#2 ++ d) r.code r'.code 1#1, w2] := by
  rw [encodeLoadStore, BitVec.extractLsb'_append_eq_left, BitVec.extractLsb'_append_eq_right]

theorem encodeLoadStore_abs (op2 d : BitVec 2) :
    encodeLoadStore op2 i r (.abs (d ++ w2)) = [packWord op2 i (0b11#2 ++ d) r.code 0b1111#4 1#1, w2] := by
  rw [encodeLoadStore, BitVec.extractLsb'_append_eq_left, BitVec.extractLsb'_append_eq_right]

end packed

/-! ### What the decoder defines is encoded back to the words it came from -/

/-- The words a decoded instruction takes up: one or two, as the first says (`30_encoding.md` R91). -/
def instrWords (w w2 : Word) : List Word := if isLong w then [w, w2] else [w]

/-- An instruction that the words encode, well-formed but for an odd second word, with a meaning of its own. -/
def EncodedBy (w w2 : Word) (j : Instr) : Prop :=
  encode j = instrWords w w2 ∧ (w2.getLsbD 0 = false → j.wellFormed = true) ∧ j.isDefined = true

section packed
variable {i : BitVec 1} {f a b : BitVec 4} {z : BitVec 1} {w2 : Word} {j : Instr}

/-! The address forms of a load or store, by bits 12, 11 and 0 and the base field (R101, R105 to R109). -/

theorem append_bits (h d : BitVec 2) :
    (h ++ d : BitVec 4)[3] = h[1] ∧ (h ++ d : BitVec 4)[2] = h[0] ∧ (h ++ d : BitVec 4).extractLsb' 0 2 = d := by
  revert h d
  decide

theorem append_shortDisp_bits (f : BitVec 4) (z : BitVec 1) :
    (f ++ z : BitVec 5)[4] = f[3] ∧ (f ++ z : BitVec 5)[0] = z[0] := by
  revert f z
  decide

theorem decodeMode_relShort {op2 : BitVec 2} (h : (f[3] && z[0]) = false) :
    decodeMode (packWord op2 i f a b z) w2 = .relShort (Reg.ofCode b) (f ++ z) := by
  simp [decodeMode, h]

theorem decodeMode_relMedium {op2 : BitVec 2} (d : BitVec 2) :
    decodeMode (packWord op2 i (0b10#2 ++ d) a b 1#1) w2 = .relMedium (Reg.ofCode b) (d ++ w2) := by
  simp [decodeMode, append_bits]

theorem decodeMode_farRel {op2 : BitVec 2} (d : BitVec 2) (hb : b ≠ 0b1111#4) :
    decodeMode (packWord op2 i (0b11#2 ++ d) a b 1#1) w2 = .farRel (Reg.ofCode b) (d ++ w2) := by
  simp [decodeMode, append_bits, hb]

theorem decodeMode_abs {op2 : BitVec 2} (d : BitVec 2) :
    decodeMode (packWord op2 i (0b11#2 ++ d) a 0b1111#4 1#1) w2 = .abs (d ++ w2) := by
  simp [decodeMode, append_bits]

/-- The op code field of a load or store with a second word: bit 12 is 1, bit 11 tells far-relative and absolute apart. -/
theorem exists_longMode (hf : f[3] = true) : ∃ d : BitVec 2, f = 0b10#2 ++ d ∨ f = 0b11#2 ++ d := by
  revert f
  decide

theorem Reg.ofCode_eq_sp_iff : Reg.ofCode b = .sp ↔ b = 0b1111#4 := by
  revert b
  decide

/-- Format LS: the mode is well-formed, and the encoder writes the words it was read from. -/
theorem decodeMode_packWord {op2 : BitVec 2} (h : op2 = 0b10#2 ∨ op2 = 0b11#2) :
    (decodeMode (packWord op2 i f a b z) w2).wellFormed = true ∧
      encodeLoadStore op2 i (Reg.ofCode a) (decodeMode (packWord op2 i f a b z) w2) =
        instrWords (packWord op2 i f a b z) w2 := by
  cases hlong : f[3] && z[0] with
  | false =>
    refine ⟨?_, ?_⟩
    · simpa [decodeMode_relShort hlong, Mode.wellFormed, append_shortDisp_bits, imp_iff_not_or] using hlong
    · simp [decodeMode_relShort hlong, encodeLoadStore_relShort, instrWords, isLong_loadStore _ _ _ _ _ h, hlong]
  | true =>
    obtain ⟨hf, hz⟩ := Bool.and_eq_true_iff.mp hlong
    obtain rfl := (getElem_zero_eq_true_iff z).mp hz
    have hwords : instrWords (packWord op2 i f a b 1#1) w2 = [packWord op2 i f a b 1#1, w2] := by
      simp [instrWords, isLong_loadStore _ _ _ _ _ h, hf]
    obtain ⟨d, rfl | rfl⟩ := exists_longMode hf
    · rw [hwords, decodeMode_relMedium, encodeLoadStore_relMedium, Reg.code_ofCode, Reg.code_ofCode]
      exact ⟨rfl, rfl⟩
    · by_cases hb : b = 0b1111#4
      · subst hb
        rw [hwords, decodeMode_abs, encodeLoadStore_abs, Reg.code_ofCode]
        exact ⟨rfl, rfl⟩
      · rw [hwords, decodeMode_farRel d hb, encodeLoadStore_farRel, Reg.code_ofCode, Reg.code_ofCode]
        exact ⟨by simp [Mode.wellFormed, Reg.ofCode_eq_sp_iff, hb], rfl⟩

/-! One lemma for each format of a first word. -/

/-- Where the op code is defined, only the escape says that a second word follows (`30_encoding.md` R91, R95). -/
theorem isLong_of_decodeAlu {src : Src} {r : Reg} (h : decodeAlu i f src r = some j) :
    isLong (packWord 0b00#2 i f a b z) = true ↔ b = 0b1000#4 ∧ z = 1#1 := by
  have hopcode : ¬(f = 0b0010#4 ∨ f = 0b1010#4 ∨ (i = 0#1 ∧ f = 0b1011#4)) := by
    rw [← decodeAlu_eq_none_iff, h]
    exact Option.some_ne_none j
  obtain ⟨hund, hbranch, htbit⟩ : f ≠ 0b0010#4 ∧ f ≠ 0b1010#4 ∧ ¬(i = 0#1 ∧ f = 0b1011#4) := by simpa using hopcode
  simp [isLong_immediate, hund, hbranch, mt And.symm htbit]

theorem encodedBy_nop : EncodedBy 0x0200#16 w2 .nop := ⟨rfl, fun _ => rfl, rfl⟩

theorem encodedBy_immediate (hnop : packWord 0b00#2 i f a b z ≠ 0x0200#16)
    (h : decodeAlu i f (if b ++ z = 0b10001#5 then .medium w2 else .short (b ++ z)) (Reg.ofCode a) = some j) :
    EncodedBy (packWord 0b00#2 i f a b z) w2 j := by
  obtain ⟨hcode, hwf, hdef⟩ := decodeAlu_some h
  have hlong := isLong_of_decodeAlu (a := a) (b := b) (z := z) h
  by_cases hescape : b = 0b1000#4 ∧ z = 1#1
  · rw [if_pos ((append_eq_escape_iff b z).mpr hescape)] at hcode hwf
    obtain ⟨rfl, rfl⟩ := hescape
    refine ⟨?_, fun _ => hwf.mpr ⟨rfl, by simp⟩, hdef⟩
    rw [hcode, encodeAlu_medium, Reg.code_ofCode, instrWords, if_pos (hlong.mpr ⟨rfl, rfl⟩)]
  · rw [if_neg (mt (append_eq_escape_iff b z).mp hescape)] at hcode hwf
    refine ⟨?_, fun _ => hwf.mpr ⟨?_, ?_⟩, hdef⟩
    · rw [hcode, encodeAlu_short, Reg.code_ofCode, instrWords, if_neg (mt hlong.mp hescape)]
    · simpa [Src.wellFormed, append_eq_escape_iff] using hescape
    · rintro ⟨rfl, rfl, hsrc, ha⟩
      obtain ⟨rfl, rfl⟩ : b = 0#4 ∧ z = 0#1 := append_inj.mp (Src.short.inj hsrc)
      have hcode0 : a = 0#4 := by rw [← Reg.code_ofCode a, ha, Reg.code]
      exact hnop (packWord_eq_nop_iff.mpr ⟨rfl, rfl, hcode0, rfl, rfl⟩)

/-- The field of operand 1 of a medium branch: bit 16 of the displacement above 111. -/
theorem append_mediumBranch_field (hb : b.extractLsb' 0 3 = 0b111#3) : b.extractLsb' 3 1 ++ 0b111#3 = b := by
  revert b
  decide

theorem instrWords_mediumBranch (hb : b.extractLsb' 0 3 = 0b111#3) :
    instrWords (packWord 0b00#2 i 0b1010#4 a b 0#1) w2 = [packWord 0b00#2 i 0b1010#4 a b 0#1, w2] :=
  if_pos ((isLong_immediate ..).mpr (.inl ⟨rfl, hb, rfl⟩))

/-- A medium displacement is even where its second word is. -/
theorem getLsbD_zero_mediumDisp (d : BitVec 1) : (d ++ w2 : BitVec 17).getLsbD 0 = w2.getLsbD 0 := by
  rw [BitVec.getLsbD_append]
  rfl

theorem encodedBy_mediumBranch (hb : b.extractLsb' 0 3 = 0b111#3)
    (h : decodeBranch a (.medium (b.extractLsb' 3 1 ++ w2)) = some j) :
    EncodedBy (packWord 0b00#2 0#1 0b1010#4 a b 0#1) w2 j := by
  obtain ⟨hcode, hwf, hdef⟩ := decodeBranch_some h
  refine ⟨?_, fun heven => ?_, hdef⟩
  · rw [hcode, encodeBranch_medium, append_mediumBranch_field hb, instrWords_mediumBranch hb]
  · rw [hwf, Disp.wellFormed, getLsbD_zero_mediumDisp, heven]
    rfl

theorem encodedBy_bal (hb : b.extractLsb' 0 3 = 0b111#3) :
    EncodedBy (packWord 0b00#2 1#1 0b1010#4 a b 0#1) w2 (.bal (Reg.ofCode a) (b.extractLsb' 3 1 ++ w2)) := by
  refine ⟨?_, fun heven => ?_, rfl⟩
  · rw [encode_bal, append_mediumBranch_field hb, instrWords_mediumBranch hb, Reg.code_ofCode]
  · rw [Instr.wellFormed, getLsbD_zero_mediumDisp, heven]
    rfl

theorem instrWords_op2_one : instrWords (packWord 0b01#2 i f a b z) w2 = [packWord 0b01#2 i f a b z] := by
  rw [instrWords, isLong_op2_one]
  rfl

theorem encodedBy_register (h : decodeAlu i f (.reg (Reg.ofCode b)) (Reg.ofCode a) = some j) :
    EncodedBy (packWord 0b01#2 i f a b 1#1) w2 j := by
  obtain ⟨hcode, hwf, hdef⟩ := decodeAlu_some h
  refine ⟨?_, fun _ => hwf.mpr ⟨rfl, by simp⟩, hdef⟩
  rw [hcode, encodeAlu, Reg.code_ofCode, Reg.code_ofCode, instrWords_op2_one]

theorem encodedBy_jump (h : decodeJump a (Reg.ofCode b) = some j) :
    EncodedBy (packWord 0b01#2 0#1 0b1010#4 a b 1#1) w2 j := by
  obtain ⟨hcode, hwf, hdef⟩ := decodeJump_some h
  refine ⟨?_, fun _ => hwf, hdef⟩
  rw [hcode, encodeJump, Reg.code_ofCode, instrWords_op2_one]

theorem encodedBy_jal :
    EncodedBy (packWord 0b01#2 1#1 0b1010#4 a b 1#1) w2 (.jal (Reg.ofCode a) (Reg.ofCode b)) := by
  refine ⟨?_, fun _ => rfl, rfl⟩
  rw [encode, encodeJump, Reg.code_ofCode, Reg.code_ofCode, instrWords_op2_one]

theorem encodedBy_branchShort (h : decodeBranch a (.short (f ++ (b ++ 0#1))) = some j) :
    EncodedBy (packWord 0b01#2 0#1 f a b 0#1) w2 j := by
  obtain ⟨hcode, hwf, hdef⟩ := decodeBranch_some h
  refine ⟨?_, fun _ => ?_, hdef⟩
  · rw [hcode, encodeBranch_short, instrWords_op2_one]
  · rw [hwf, Disp.wellFormed, BitVec.getLsbD_append, BitVec.getLsbD_append]
    rfl

theorem encodedBy_special (h : decodeSp (packWord 0b01#2 1#1 f a b 0#1) = some j) :
    EncodedBy (packWord 0b01#2 1#1 f a b 0#1) w2 j := by
  rw [EncodedBy, instrWords_op2_one]
  rw [decodeSp, fieldF_packWord, fieldA_packWord, fieldB_packWord] at h
  split at h
  case h_1 | h_2 => -- MOVXB, MOVZB
    cases h
    exact ⟨by simp [encode, encodeSp], fun _ => rfl, rfl⟩
  case h_3 => -- Scond
    obtain ⟨hcode, hwf, hdef⟩ := decodeScond_some h
    exact ⟨by rw [hcode, encodeSp, Reg.code_ofCode], fun _ => hwf, hdef⟩
  case h_4 | h_5 => -- LPR, SPR
    obtain ⟨p, hp, rfl⟩ := Option.map_eq_some_iff.mp h
    exact ⟨by rw [encode, encodeSp, ProcReg.code_of_ofCode hp, Reg.code_ofCode], fun _ => rfl, rfl⟩
  case h_6 | h_9 => -- RETX, WAIT
    obtain ⟨hfields, hj⟩ := Option.ite_none_right_eq_some.mp h
    obtain ⟨rfl, rfl⟩ : a = 0b1111#4 ∧ b = 0b1111#4 := by simpa using hfields
    cases hj
    exact ⟨rfl, fun _ => rfl, rfl⟩
  case h_7 => -- EXCP
    obtain ⟨hfield, hj⟩ := Option.ite_none_right_eq_some.mp h
    obtain rfl : a = 0b1111#4 := by simpa using hfield
    cases hj
    exact ⟨rfl, fun _ => rfl, rfl⟩
  case h_8 => -- DI, EI
    split at h
    case isTrue hdi =>
      obtain ⟨rfl, rfl⟩ : a = 0b1110#4 ∧ b = 0b1111#4 := by simpa using hdi
      cases h
      exact ⟨rfl, fun _ => rfl, rfl⟩
    case isFalse =>
      obtain ⟨hei, hj⟩ := Option.ite_none_right_eq_some.mp h
      obtain ⟨rfl, rfl⟩ : a = 0b1111#4 ∧ b = 0b1111#4 := by simpa using hei
      cases hj
      exact ⟨rfl, fun _ => rfl, rfl⟩
  case h_10 => cases h

theorem encodedBy_loadStore {op2 : BitVec 2} (hop2 : op2 = 0b10#2 ∨ op2 = 0b11#2)
    (h : decodeDefined (packWord op2 i f a b z) w2 = some j) : EncodedBy (packWord op2 i f a b z) w2 j := by
  obtain ⟨hmode, hcode⟩ := decodeMode_packWord (i := i) (f := f) (a := a) (b := b) (z := z) (w2 := w2) hop2
  rcases hop2 with rfl | rfl <;> rcases BitVec.eq_zero_or_eq_one i with rfl | rfl
  · cases decodeDefined_loadb.symm.trans h
    exact ⟨hcode, fun _ => hmode, rfl⟩
  · cases decodeDefined_loadw.symm.trans h
    exact ⟨hcode, fun _ => hmode, rfl⟩
  · cases decodeDefined_storb.symm.trans h
    exact ⟨hcode, fun _ => hmode, rfl⟩
  · cases decodeDefined_storw.symm.trans h
    exact ⟨hcode, fun _ => hmode, rfl⟩

end packed

theorem encodedBy_of_decodeDefined {w w2 : Word} {j : Instr} (h : decodeDefined w w2 = some j) : EncodedBy w w2 j := by
  cases wordFamily w with
  | immediate i f a b z =>
    by_cases hnop : packWord 0b00#2 i f a b z = 0x0200#16
    · rw [hnop] at h ⊢
      cases h
      exact encodedBy_nop
    · by_cases hf : f = 0b1010#4
      · subst hf
        by_cases hlow : b.extractLsb' 0 3 = 0b111#3 ∧ z = 0#1
        · obtain ⟨hb, rfl⟩ := hlow
          rcases BitVec.eq_zero_or_eq_one i with rfl | rfl
          · exact encodedBy_mediumBranch hb ((decodeDefined_mediumBranch hb).symm.trans h)
          · cases (decodeDefined_bal hb).symm.trans h
            exact encodedBy_bal hb
        · cases (decodeDefined_noBranch hlow).symm.trans h
      · exact encodedBy_immediate hnop ((decodeDefined_immediate hnop hf).symm.trans h)
  | register i f a b =>
    by_cases hf : f = 0b1010#4
    · subst hf
      rcases BitVec.eq_zero_or_eq_one i with rfl | rfl
      · exact encodedBy_jump (decodeDefined_jump.symm.trans h)
      · cases decodeDefined_jal.symm.trans h
        exact encodedBy_jal
    · exact encodedBy_register ((decodeDefined_register hf).symm.trans h)
  | branchShort f a b => exact encodedBy_branchShort (decodeDefined_branchShort.symm.trans h)
  | special f a b => exact encodedBy_special (decodeDefined_special.symm.trans h)
  | loadStore op2 i f a b z hop2 => exact encodedBy_loadStore hop2 h

/-! ### The words without a meaning (`30_encoding.md` R117, R119) -/

theorem isLong_of_isUndefinedWord {w : Word} (h : isUndefinedWord w = true) : isLong w = false := by
  rw [Bool.eq_false_iff]
  intro hlong
  cases wordFamily w with
  | immediate i f a b z =>
    rw [isUndefinedWord_immediate] at h
    rcases (isLong_immediate i f a b z).mp hlong with ⟨rfl, -, rfl⟩ | ⟨hbranch, hund, htbit, -⟩
    · simp at h
    · tauto
  | register | branchShort | special => simp [isLong_op2_one] at hlong
  | loadStore op2 i f a b z hop2 => simp [isUndefinedWord_loadStore op2 i f a b z hop2] at h

theorem mediumCond15_holds_iff (op2 : BitVec 2) (i : BitVec 1) (f a b : BitVec 4) (z : BitVec 1) :
    mediumCond15.holds (packWord op2 i f a b z) = true ↔
      op2 = 0b00#2 ∧ i = 0#1 ∧ f = 0b1010#4 ∧ a = 0b1111#4 ∧ b.extractLsb' 0 3 = 0b111#3 ∧ z = 0#1 := by
  obtain ⟨-, -, -, hlow⟩ := masked_field_iff b
  simp [mediumCond15, hlow]

/-- Of the words of R119 only a medium branch with condition 1111 has a second word (`30_encoding.md` R91, R119). -/
theorem isLong_of_isUnspecifiedWord {w : Word} (h : isUnspecifiedWord w = true) : isLong w = mediumCond15.holds w := by
  cases wordFamily w with
  | immediate i f a b z =>
    obtain ⟨rfl, rfl, hbranch⟩ := (isUnspecifiedWord_immediate i f a b z).mp h
    rw [Bool.eq_iff_iff, isLong_immediate, mediumCond15_holds_iff]
    rcases hbranch with hb | ⟨rfl, rfl⟩
    · simp [hb]
    · simp
  | register | branchShort | special => simp [isLong_op2_one, mediumCond15]
  | loadStore op2 i f a b z hop2 => simp [isUnspecifiedWord_loadStore op2 i f a b z hop2] at h

theorem isUnspecifiedWord_of_mediumCond15 {w : Word} (h : mediumCond15.holds w = true) : isUnspecifiedWord w = true := by
  obtain ⟨op2, i, f, a, b, z, rfl⟩ := exists_packWord w
  obtain ⟨rfl, rfl, rfl, rfl, -, rfl⟩ := (mediumCond15_holds_iff ..).mp h
  exact (isUnspecifiedWord_immediate ..).mpr ⟨rfl, rfl, .inr ⟨rfl, rfl⟩⟩

theorem decodeWords_of_isUndefinedWord {w : Word} (w2 : Word) (h : isUndefinedWord w = true) : decodeWords w w2 = .und w := by
  rw [decodeWords, (decodeDefined_eq_none_iff w w2).mpr (.inl h)]
  exact if_pos h

theorem decodeWords_of_isUnspecifiedWord {w : Word} (w2 : Word) (h : isUnspecifiedWord w = true) :
    decodeWords w w2 = .unspecified (if isLong w then .two w w2 else .one w) := by
  have hund : isUndefinedWord w ≠ true := fun hu => by simp [isUnspecifiedWord_of_isUndefinedWord hu] at h
  rw [decodeWords, (decodeDefined_eq_none_iff w w2).mpr (.inr h)]
  exact if_neg hund

theorem decodeWords_of_decodeDefined {w w2 : Word} {j : Instr} (h : decodeDefined w w2 = some j) : decodeWords w w2 = j := by
  rw [decodeWords, h]

/-- All that the decoder does with a first and a second word (`30_encoding.md` R116, R117, R119). -/
theorem decodeWords_cases (w w2 : Word) :
    (isUndefinedWord w = true ∧ decodeWords w w2 = .und w) ∨
      (isUnspecifiedWord w = true ∧ decodeWords w w2 = .unspecified (if isLong w then .two w w2 else .one w)) ∨
      (isUndefinedWord w = false ∧ isUnspecifiedWord w = false ∧ EncodedBy w w2 (decodeWords w w2)) := by
  cases hdef : decodeDefined w w2 with
  | none =>
    rcases (decodeDefined_eq_none_iff w w2).mp hdef with h | h
    · exact .inl ⟨h, decodeWords_of_isUndefinedWord w2 h⟩
    · exact .inr (.inl ⟨h, decodeWords_of_isUnspecifiedWord w2 h⟩)
  | some j =>
    have hmeaning : ¬(isUndefinedWord w = true ∨ isUnspecifiedWord w = true) := by
      rw [← decodeDefined_eq_none_iff w w2, hdef]
      exact Option.some_ne_none j
    rw [decodeWords_of_decodeDefined hdef]
    exact .inr (.inr ⟨by simpa using fun h => hmeaning (.inl h), by simpa using fun h => hmeaning (.inr h),
      encodedBy_of_decodeDefined hdef⟩)

/-- Settles O2: the words of Table A-2 and of R119 are kept as they are, and what the formats define is encoded back. -/
theorem encodeOfDecode : Obligations.EncodeOfDecode := by
  intro w w2
  rcases decodeWords_cases w w2 with ⟨hund, h⟩ | ⟨hunsp, h⟩ | ⟨-, -, hcode, hwf, -⟩
  · rw [h]
    exact ⟨by rw [isLong_of_isUndefinedWord hund]; rfl, fun _ => hund⟩
  · have hmedium := isLong_of_isUnspecifiedWord hunsp
    rw [h]
    cases hlong : isLong w with
    | true => exact ⟨rfl, fun _ => by simpa [Instr.wellFormed] using hmedium.symm.trans hlong⟩
    | false => exact ⟨rfl, fun _ => by simpa [Instr.wellFormed, hunsp] using hmedium.symm.trans hlong⟩
  · exact ⟨hcode, hwf⟩

end Sys2Proof

/-! PROOFS of the encoding statements, fourth part: the words without a meaning (O4, O5), and decoding what was encoded
(O1). -/

namespace Sys2Proof

/-! ### What the decoder reads from the words of R117 and R119 -/

theorem decodeWords_eq_und_iff (w w2 : Word) : decodeWords w w2 = .und w ↔ isUndefinedWord w = true := by
  refine ⟨fun h => ?_, decodeWords_of_isUndefinedWord w2⟩
  rcases decodeWords_cases w w2 with ⟨hund, -⟩ | ⟨-, hunsp⟩ | ⟨-, -, -, -, hdef⟩
  · exact hund
  · cases h.symm.trans hunsp
  · rw [h] at hdef
    cases hdef

theorem decodeWords_eq_unspecified_iff (w w2 : Word) :
    decodeWords w w2 = .unspecified (if isLong w then .two w w2 else .one w) ↔ isUnspecifiedWord w = true := by
  refine ⟨fun h => ?_, decodeWords_of_isUnspecifiedWord w2⟩
  rcases decodeWords_cases w w2 with ⟨-, hund⟩ | ⟨hunsp, -⟩ | ⟨-, -, -, -, hdef⟩
  · cases h.symm.trans hund
  · exact hunsp
  · rw [h] at hdef
    cases hdef

/-- Settles O4: the rows of Table A-2, family by family. -/
theorem undefinedWords : Obligations.UndefinedWords := by
  intro w w2
  rw [decodeWords_eq_und_iff]
  cases wordFamily w with
  | immediate i f a b z =>
    simp [isUndefinedWord_immediate, getElem_zero_eq_true_iff, getElem_zero_eq_false_iff]
  | register i f a b =>
    simp [isUndefinedWord_register, getElem_zero_eq_true_iff, getElem_zero_eq_false_iff]
  | branchShort f a b => simp [isUndefinedWord_branchShort]
  | special f a b => simp [isUndefinedWord_special, SpUndefined]
  | loadStore op2 i f a b z h =>
    rw [isUndefinedWord_loadStore op2 i f a b z h]
    rcases h with rfl | rfl <;> simp

/-- Settles O5: the rows of R119, family by family; that executing one is refused is the meaning of UNSPECIFIED. -/
theorem unspecifiedWordsStop : Obligations.UnspecifiedWordsStop := by
  refine ⟨fun w w2 => ?_, fun _ _ => rfl⟩
  rw [decodeWords_eq_unspecified_iff]
  cases wordFamily w with
  | immediate i f a b z => simp [isUnspecifiedWord_immediate, getElem_zero_eq_false_iff]
  | register i f a b => simp [isUnspecifiedWord_register, getElem_zero_eq_false_iff]
  | branchShort f a b => simp [isUnspecifiedWord_branchShort]
  | special f a b => simp [isUnspecifiedWord_special, SpUnspecified]
  | loadStore op2 i f a b z h =>
    rw [isUnspecifiedWord_loadStore op2 i f a b z h]
    rcases h with rfl | rfl <;> simp

/-! ### Every well-formed instruction is read from some words -/

/-- The words are those of one instruction, which they decode to; the second counts as 0 where the first has none. -/
def ReadAs (ws : List Word) (j : Instr) : Prop :=
  ∃ w w2 : Word, ws = instrWords w w2 ∧ decodeWords w w2 = j ∧ (isLong w = false → w2 = 0#16)

section readAs
variable {i : BitVec 1} {f c : BitVec 4} {src : Src} {disp : Disp} {m : Mode} {r r' : Reg} {j : Instr}

/-- Words that decode to an instruction of the formats are the words it is encoded as. -/
theorem readAs_encode {w w2 : Word} (h : decodeDefined w w2 = some j) (hw2 : isLong w = false → w2 = 0#16) :
    ReadAs (encode j) j := by
  obtain ⟨hcode, -⟩ := encodedBy_of_decodeDefined h
  exact ⟨w, w2, hcode, decodeWords_of_decodeDefined h, hw2⟩

theorem readAs_encode_short {w : Word} (h : decodeDefined w 0#16 = some j) : ReadAs (encode j) j :=
  readAs_encode h fun _ => rfl

theorem readAs_encode_long {w w2 : Word} (h : decodeDefined w w2 = some j) (hlong : isLong w = true) : ReadAs (encode j) j :=
  readAs_encode h fun hshort => by simp [hlong] at hshort

/-- Formats RR, IS and IM. -/
theorem readAs_alu (h : decodeAlu i f src r = some j) (hj : j.wellFormed = true) : ReadAs (encodeAlu i f r src) j := by
  obtain ⟨hcode, hwf, -⟩ := decodeAlu_some h
  obtain ⟨hsrc, hnop⟩ := hwf.mp hj
  have hf : f ≠ 0b1010#4 := by
    rintro rfl
    cases h.symm.trans (decodeAlu_eq_none_iff.mpr (.inr (.inl rfl)))
  rw [← hcode]
  cases src with
  | reg r' =>
    refine readAs_encode_short (w := packWord 0b01#2 i f r.code r'.code 1#1) ?_
    rw [decodeDefined_register hf, Reg.ofCode_code, Reg.ofCode_code, h]
  | short imm =>
    obtain ⟨b, z, rfl⟩ := exists_append (m := 4) (n := 1) imm
    have hword : packWord 0b00#2 i f r.code b z ≠ 0x0200#16 := fun e => by
      obtain ⟨hi, hf1, hr, rfl, rfl⟩ := packWord_eq_nop_iff.mp e
      have hr0 : r = .r0 := by rw [← Reg.ofCode_code r, hr, Reg.ofCode]
      exact hnop ⟨hi, hf1, rfl, hr0⟩
    refine readAs_encode_short (w := packWord 0b00#2 i f r.code b z) ?_
    rw [decodeDefined_immediate hword hf, if_neg (by simpa [Src.wellFormed] using hsrc), Reg.ofCode_code, h]
  | medium imm =>
    refine readAs_encode_long (w := packWord 0b00#2 i f r.code 0b1000#4 1#1) (w2 := imm) ?_
      ((isLong_of_decodeAlu h).mpr ⟨rfl, rfl⟩)
    have hescape : 0b1000#4 ++ 1#1 = 0b10001#5 := rfl
    rw [decodeDefined_immediate (by simp [packWord_eq_nop_iff]) hf, if_pos hescape, Reg.ofCode_code, h]

/-- The field of operand 1 of a medium branch, put together. -/
theorem mediumBranch_field_bits (d : BitVec 1) :
    (d ++ 0b111#3 : BitVec 4).extractLsb' 0 3 = 0b111#3 ∧ (d ++ 0b111#3 : BitVec 4).extractLsb' 3 1 = d := by
  revert d
  decide

theorem isLong_mediumBranch (d : BitVec 1) : isLong (packWord 0b00#2 i 0b1010#4 c (d ++ 0b111#3) 0#1) = true := by
  obtain ⟨hlow, -⟩ := mediumBranch_field_bits d
  exact (isLong_immediate ..).mpr (.inl ⟨rfl, hlow, rfl⟩)

/-- Formats BR-S and BR-M. -/
theorem readAs_branch (h : decodeBranch c disp = some j) (hj : j.wellFormed = true) : ReadAs (encodeBranch c disp) j := by
  obtain ⟨hcode, hwf, -⟩ := decodeBranch_some h
  rw [hwf] at hj
  rw [← hcode]
  cases disp with
  | short d =>
    obtain ⟨f, l, rfl⟩ := exists_append (m := 4) (n := 5) d
    obtain ⟨b, z, rfl⟩ := exists_append (m := 4) (n := 1) l
    obtain rfl : z = 0#1 := by
      rw [Disp.wellFormed, BitVec.getLsbD_append, BitVec.getLsbD_append] at hj
      simpa [getElem_zero_eq_false_iff] using hj
    exact readAs_encode_short (decodeDefined_branchShort.trans h)
  | medium d =>
    obtain ⟨d, w2, rfl⟩ := exists_append (m := 1) (n := 16) d
    obtain ⟨hlow, hhigh⟩ := mediumBranch_field_bits d
    refine readAs_encode_long (w2 := w2) ?_ (isLong_mediumBranch (i := 0#1) (c := c) d)
    rw [decodeDefined_mediumBranch hlow, hhigh, h]

theorem readAs_bal (d : BitVec 17) : ReadAs (encode (.bal r d)) (.bal r d) := by
  obtain ⟨d, w2, rfl⟩ := exists_append (m := 1) (n := 16) d
  obtain ⟨hlow, hhigh⟩ := mediumBranch_field_bits d
  refine readAs_encode_long (w2 := w2) ?_ (isLong_mediumBranch (i := 1#1) (c := r.code) d)
  rw [decodeDefined_bal hlow, hhigh, Reg.ofCode_code]

/-- Formats J and JAL. -/
theorem readAs_jump (h : decodeJump c r = some j) : ReadAs (encodeJump 0#1 c r) j := by
  obtain ⟨hcode, -⟩ := decodeJump_some h
  rw [← hcode]
  refine readAs_encode_short (w := packWord 0b01#2 0#1 0b1010#4 c r.code 1#1) ?_
  rw [decodeDefined_jump, Reg.ofCode_code, h]

theorem readAs_jal : ReadAs (encode (.jal r r')) (.jal r r') := by
  refine readAs_encode_short (w := packWord 0b01#2 1#1 0b1010#4 r.code r'.code 1#1) ?_
  rw [decodeDefined_jal, Reg.ofCode_code, Reg.ofCode_code]

/-- Format SP. -/
theorem readAs_special {a b : BitVec 4} (h : decodeSp (packWord 0b01#2 1#1 f a b 0#1) = some j) : ReadAs (encode j) j :=
  readAs_encode_short (decodeDefined_special.trans h)

theorem readAs_scond (h : decodeScond c r = some j) : ReadAs (encodeSp 0b0111#4 c r.code) j := by
  obtain ⟨hcode, -⟩ := decodeScond_some h
  rw [← hcode]
  exact readAs_special (f := 0b0111#4) (a := c) (b := r.code) (by simp [decodeSp, h])

/-- Formats LS-S, LS-M, LS-F and LS-A. -/
theorem exists_modeFields (hm : m.wellFormed = true) : ∃ (f b : BitVec 4) (z : BitVec 1) (w2 : Word),
    ∀ (op2 : BitVec 2) (i : BitVec 1) (a : BitVec 4), op2 = 0b10#2 ∨ op2 = 0b11#2 →
      decodeMode (packWord op2 i f a b z) w2 = m ∧ (isLong (packWord op2 i f a b z) = false → w2 = 0#16) := by
  cases m with
  | relShort base d =>
    obtain ⟨f, z, rfl⟩ := exists_append (m := 4) (n := 1) d
    have hshort : (f[3] && z[0]) = false := by
      simpa [Mode.wellFormed, append_shortDisp_bits, imp_iff_not_or] using hm
    refine ⟨f, base.code, z, 0#16, fun op2 i a _ => ⟨?_, fun _ => rfl⟩⟩
    rw [decodeMode_relShort hshort, Reg.ofCode_code]
  | relMedium base d =>
    obtain ⟨d, w2, rfl⟩ := exists_append (m := 2) (n := 16) d
    refine ⟨0b10#2 ++ d, base.code, 1#1, w2, fun op2 i a hop2 => ⟨?_, fun h => ?_⟩⟩
    · rw [decodeMode_relMedium, Reg.ofCode_code]
    · simp [isLong_loadStore _ _ _ _ _ hop2, append_bits] at h
  | farRel pair d =>
    obtain ⟨d, w2, rfl⟩ := exists_append (m := 2) (n := 16) d
    have hpair : pair.code ≠ 0b1111#4 := by
      simpa [Mode.wellFormed, ← Reg.ofCode_eq_sp_iff] using hm
    refine ⟨0b11#2 ++ d, pair.code, 1#1, w2, fun op2 i a hop2 => ⟨?_, fun h => ?_⟩⟩
    · rw [decodeMode_farRel d hpair, Reg.ofCode_code]
    · simp [isLong_loadStore _ _ _ _ _ hop2, append_bits] at h
  | abs d =>
    obtain ⟨d, w2, rfl⟩ := exists_append (m := 2) (n := 16) d
    refine ⟨0b11#2 ++ d, 0b1111#4, 1#1, w2, fun op2 i a hop2 => ⟨decodeMode_abs d, fun h => ?_⟩⟩
    simp [isLong_loadStore _ _ _ _ _ hop2, append_bits] at h

theorem readAs_loadb (hm : m.wellFormed = true) : ReadAs (encode (.loadb m r)) (.loadb m r) := by
  obtain ⟨f, b, z, w2, h⟩ := exists_modeFields hm
  obtain ⟨hmode, hw2⟩ := h 0b10#2 0#1 r.code (.inl rfl)
  exact readAs_encode (by rw [decodeDefined_loadb, hmode, Reg.ofCode_code]) hw2

theorem readAs_loadw (hm : m.wellFormed = true) : ReadAs (encode (.loadw m r)) (.loadw m r) := by
  obtain ⟨f, b, z, w2, h⟩ := exists_modeFields hm
  obtain ⟨hmode, hw2⟩ := h 0b10#2 1#1 r.code (.inl rfl)
  exact readAs_encode (by rw [decodeDefined_loadw, hmode, Reg.ofCode_code]) hw2

theorem readAs_storb (hm : m.wellFormed = true) : ReadAs (encode (.storb r m)) (.storb r m) := by
  obtain ⟨f, b, z, w2, h⟩ := exists_modeFields hm
  obtain ⟨hmode, hw2⟩ := h 0b11#2 0#1 r.code (.inr rfl)
  exact readAs_encode (by rw [decodeDefined_storb, hmode, Reg.ofCode_code]) hw2

theorem readAs_storw (hm : m.wellFormed = true) : ReadAs (encode (.storw r m)) (.storw r m) := by
  obtain ⟨f, b, z, w2, h⟩ := exists_modeFields hm
  obtain ⟨hmode, hw2⟩ := h 0b11#2 1#1 r.code (.inr rfl)
  exact readAs_encode (by rw [decodeDefined_storw, hmode, Reg.ofCode_code]) hw2

theorem readAs_und {w : Word} (h : isUndefinedWord w = true) : ReadAs (encode (.und w)) (.und w) := by
  refine ⟨w, 0#16, ?_, decodeWords_of_isUndefinedWord 0#16 h, fun _ => rfl⟩
  rw [instrWords, isLong_of_isUndefinedWord h]
  rfl

theorem readAs_unspecified {words : Words} (h : (Instr.unspecified words).wellFormed = true) :
    ReadAs (encode (.unspecified words)) (.unspecified words) := by
  cases words with
  | one w =>
    obtain ⟨hunsp, hmedium⟩ : isUnspecifiedWord w = true ∧ mediumCond15.holds w = false := by
      simpa [Instr.wellFormed] using h
    have hlong : isLong w = false := (isLong_of_isUnspecifiedWord hunsp).trans hmedium
    have hread := decodeWords_of_isUnspecifiedWord 0#16 hunsp
    rw [hlong] at hread
    exact ⟨w, 0#16, by rw [instrWords, hlong]; rfl, hread, fun _ => rfl⟩
  | two w w2 =>
    have hmedium : mediumCond15.holds w = true := h
    have hunsp := isUnspecifiedWord_of_mediumCond15 hmedium
    have hlong : isLong w = true := (isLong_of_isUnspecifiedWord hunsp).trans hmedium
    have hread := decodeWords_of_isUnspecifiedWord w2 hunsp
    rw [if_pos hlong] at hread
    exact ⟨w, w2, (if_pos hlong).symm, hread, fun hshort => by simp [hlong] at hshort⟩

end readAs

theorem readAs_of_wellFormed {j : Instr} (h : j.wellFormed = true) : ReadAs (encode j) j := by
  cases j with
  | movb | movw | addb | addw | addub | adduw | addcb | addcw | mulb | mulw | subb | subw | subcb | subcw | cmpb | cmpw
  | andb | andw | orb | orw | xorb | xorw | ashub | ashuw | lshb | lshw | tbit => exact readAs_alu rfl h
  | beq | bne | bcs | bcc | bhi | bls | bgt | ble | bfs | bfc | blo | bhs | blt | bge | br => exact readAs_branch rfl h
  | bal link d => exact readAs_bal d
  | jeq | jne | jcs | jcc | jhi | jls | jgt | jle | jfs | jfc | jlo | jhs | jlt | jge | jump => exact readAs_jump rfl
  | jal => exact readAs_jal
  | seq | sne | scs | scc | shi | sls | sgt | sle | sfs | sfc | slo | shs | slt | sge => exact readAs_scond rfl
  | movxb src dest => exact readAs_special (f := 0b0100#4) (a := dest.code) (b := src.code) (by simp [decodeSp])
  | movzb src dest => exact readAs_special (f := 0b0101#4) (a := dest.code) (b := src.code) (by simp [decodeSp])
  | lpr src dest => exact readAs_special (f := 0b1000#4) (a := dest.code) (b := src.code) (by simp [decodeSp])
  | spr src dest => exact readAs_special (f := 0b1001#4) (a := src.code) (b := dest.code) (by simp [decodeSp])
  | retx => exact readAs_special (f := 0b1100#4) (a := 0b1111#4) (b := 0b1111#4) rfl
  | excp vector => exact readAs_special (f := 0b1101#4) (a := 0b1111#4) (b := vector) (by simp [decodeSp])
  | di => exact readAs_special (f := 0b1110#4) (a := 0b1110#4) (b := 0b1111#4) rfl
  | ei => exact readAs_special (f := 0b1110#4) (a := 0b1111#4) (b := 0b1111#4) rfl
  | wait => exact readAs_special (f := 0b1111#4) (a := 0b1111#4) (b := 0b1111#4) rfl
  | nop => exact readAs_encode_short decodeDefined_nop
  | loadb => exact readAs_loadb h
  | loadw => exact readAs_loadw h
  | storb => exact readAs_storb h
  | storw => exact readAs_storw h
  | und => exact readAs_und h
  | unspecified => exact readAs_unspecified h

/-! ### The bytes of an instruction (`20_memory.md` R64, D1; log 1) -/

/-- The bytes of an instruction's words, and any bytes after them, are read as those words. -/
theorem decode_instrWords {w w2 : Word} (hw2 : isLong w = false → w2 = 0#16) (rest : List Byte) :
    decode ((instrWords w w2).flatMap bytesOfWord ++ rest) = .ok (decodeWords w w2, rest) := by
  cases hlong : isLong w with
  | true => simp [instrWords, hlong, bytesOfWord, decode]
  | false =>
    obtain rfl := hw2 hlong
    simp [instrWords, hlong, bytesOfWord, decode]

/-- Settles O1: the words a well-formed instruction is encoded as are read as that instruction. -/
theorem decodeOfEncode : Obligations.DecodeOfEncode := by
  intro j rest h
  obtain ⟨w, w2, hcode, rfl, hw2⟩ := readAs_of_wellFormed h
  rw [encodeBytes, hcode]
  exact decode_instrWords hw2 rest

end Sys2Proof

/-! PROOFS of the statements of `30_encoding.md` about execution and about fixed words: the UND trap (O19), the basic formats
(O6, O10), the spec's own words (O7). -/

namespace Sys2Proof.Machine

/-! ### Taking an exception (`60_exceptions.md` R296 to R298) -/

/-- The acknowledge cycle an exception makes: one for an interrupt, none for a trap (`60_exceptions.md` R293). -/
def ackCycle (k : Exc) : List BusAccess := ((excAckAddr k).map BusAccess.acknowledge).toList

section enter
variable {k : Exc} {s t : State}

theorem enter_waiting (h : enter k s = .next t) : t.waiting = false := by
  obtain ⟨-, -, -, -, rfl⟩ := enter_next.mp h
  rfl

/-- The only bytes an exception writes are those of its frame. -/
theorem enter_byteAt (h : enter k s = .next t) (a : Addr) : t.byteAt a = (pushFrame k s).byteAt a := by
  obtain ⟨-, -, -, -, rfl⟩ := enter_next.mp h
  rfl

/-- The handler's address is the dispatch-table entry as it stands after the pushes. -/
theorem enter_pc (h : enter k s = .next t) : t.pc = ofCodePointer (t.wordAt (dispatchAddr k s)) := by
  obtain ⟨-, -, -, -, rfl⟩ := enter_next.mp h
  rfl

theorem enter_bus (h : enter k s = .next t) :
    t.bus = (BusAccess.readWord (dispatchAddr k s)).seen s.memMap ++ (ackCycle k ++ (pushFrame k s).bus) := by
  obtain ⟨-, -, -, -, rfl⟩ := enter_next.mp h
  rfl

theorem exists_enter (h : ReadyForEntry (excVector k) s) : ∃ t, enter k s = .next t := by
  obtain ⟨hisp, hlow, hhigh, htable⟩ := h
  obtain ⟨-, haddr, -⟩ := frame_addresses s.isp
  exact ⟨_, enter_next.mpr ⟨hisp, hlow, by rw [haddr]; exact hhigh, htable, rfl⟩⟩

/-- An exception that is entered is taken as R296 says. -/
theorem exceptionTaken_of_enter (hwf : Memory.wf s.mem = true) (h : enter k s = .next t) :
    ExceptionTaken (excVector k) (savedPsr k s.psr) (handlerPsr k s.psr) (ackCycle k) s t := by
  obtain ⟨hintbase, hcfg, hmap, hinputs, hdevices, hdraws⟩ := enter_keeps h
  obtain ⟨-, hisp⟩ := enter_isp h
  obtain ⟨-, haddr, -⟩ := frame_addresses s.isp
  refine ⟨hisp, ⟨(savedPsr k s.psr).image (Config.freeReservedBits s.draws), psrImage_image _ _, ?_, ?_, ?_⟩,
    fun a h4 h3 h2 h1 => ?_, enter_psr h, enter_pc h, enter_waiting h, enter_unserialized h,
    State.reg_of_regs (enter_regs h), hintbase, hcfg, hmap, hinputs, hdevices, hdraws⟩
  · obtain ⟨hlow, hhigh⟩ := pushFrame_savedPc k s hwf
    exact ⟨(enter_byteAt h _).trans hlow, (enter_byteAt h _).trans hhigh⟩
  · obtain ⟨hlow, hhigh⟩ := pushFrame_savedPsr k s hwf
    exact ⟨(enter_byteAt h _).trans hlow, (enter_byteAt h _).trans hhigh⟩
  · rw [enter_bus h, pushFrame_bus, haddr]
    rfl
  · exact (enter_byteAt h a).trans (pushFrame_other k s hwf h4 h3 h2 h1)

end enter

/-- Settles O19: a word of Table A-2 takes the UND trap, which makes no acknowledge cycle. -/
theorem undefinedWordTakesUnd : Obligations.UndefinedWordTakesUnd := by
  intro w s hwf hready
  obtain ⟨t, ht⟩ := exists_enter (k := .und) hready
  exact ⟨t, ht, exceptionTaken_of_enter hwf ht⟩

/-! ### The basic formats (`30_encoding.md` R94 to R97, R124) -/

theorem basicEncoding_of_encodeAlu {mk : Src → Reg → Instr} {i : BitVec 1} {f : BitVec 4}
    (h : ∀ src d, encode (mk src d) = encodeAlu i f d src) : BasicEncoding mk i f :=
  fun d => ⟨fun r => h (.reg r) d, fun imm => h (.short imm) d, fun imm => h (.medium imm) d⟩

/-- Settles O6: each of the 27 is encoded in the formats RR, IS and IM with its own length bit and op code. -/
theorem basicFormatOpCodes : Obligations.BasicFormatOpCodes := by
  refine ⟨?_, ?_, ?_, ?_, ?_, ?_, ?_, ?_, ?_, ?_, ?_, ?_, ?_, ?_, ?_, ?_, ?_, ?_, ?_, ?_, ?_, ?_, ?_, ?_, ?_, ?_, ?_⟩ <;>
    exact basicEncoding_of_encodeAlu fun _ _ => rfl

/-- The byte value of a short immediate: the immediate sign-extended to a byte, for its low byte as a word is that. -/
theorem srcByte_short (s : State) (imm : BitVec 5) : srcByte s (.short imm) = imm.signExtend 8 := by
  revert imm
  simp only [srcByte, srcWord]
  decide

/-- Settles O10: a sign-extended immediate keeps its value as an integer, and a byte value is the low byte of a word. -/
theorem operandValues : Obligations.OperandValues := by
  intro s r imm w2
  refine ⟨rfl, ?_, ?_, ?_, rfl, ?_⟩
  · exact (BitVec.setWidth_eq_extractLsb' (by decide)).symm
  · exact BitVec.toInt_signExtend_of_le (by decide)
  · rw [srcByte_short]
    exact BitVec.toInt_signExtend_of_le (by decide)
  · exact (BitVec.setWidth_eq_extractLsb' (by decide)).symm

/-- Settles O7: the decoder evaluated on each word. -/
theorem manualWordsDecode : Obligations.ManualWordsDecode := by
  refine ⟨fun _ => rfl, fun _ => rfl, fun _ => rfl, fun _ => rfl, rfl, fun _ => rfl, fun _ => rfl, fun _ => rfl,
    fun _ => rfl, fun _ => rfl, fun _ => rfl, fun _ => rfl, fun _ => rfl, rfl, rfl, fun _ => rfl, fun _ => rfl,
    fun _ => rfl, fun _ => rfl, fun _ => rfl, rfl, rfl, fun _ => rfl, fun _ => rfl, fun _ => rfl⟩

end Sys2Proof.Machine

/-! PROOFS of the statements of `40_moves.md`: the extensions (O26) and the copies (O25). -/

namespace Sys2Proof.Machine

/-! ### The low byte of a register (`10_state.md` R23) -/

theorem State.regByte_eq_setWidth (s : State) (r : Reg) : s.regByte r = (s.reg r).setWidth 8 :=
  (BitVec.setWidth_eq_extractLsb' (by decide)).symm

theorem State.toNat_regByte (s : State) (r : Reg) : (s.regByte r).toNat = (s.reg r).toNat % 256 := by
  rw [State.regByte_eq_setWidth]
  exact BitVec.toNat_setWidth 8 (s.reg r)

/-! ### The moves (`40_moves.md` R141 to R143) -/

theorem exec_movb (src : Src) (d : Reg) (s : State) : exec (.movb src d) s = byteResult (fun _ v => v) src d s := rfl

theorem exec_movw (src : Src) (d : Reg) (s : State) : exec (.movw src d) s = wordResult (fun _ v => v) src d s := rfl

theorem exec_movxb (src d : Reg) (s : State) :
    exec (.movxb src d) s = .next ((s.setReg d ((s.regByte src).signExtend 16)).advance 2) := rfl

theorem exec_movzb (src d : Reg) (s : State) :
    exec (.movzb src d) s = .next ((s.setReg d ((s.regByte src).setWidth 16)).advance 2) := rfl

/-- Settles O26: extending the source's low byte by its sign keeps the signed value, extending it by zeros the unsigned one. -/
theorem extensionKeepsTheValue : Obligations.ExtensionKeepsTheValue := by
  intro src d s
  constructor
  · have signedValue : ((s.regByte src).signExtend 16).toInt = ((s.reg src).setWidth 8).toInt := by
      rw [BitVec.toInt_signExtend_of_le (by decide), State.regByte_eq_setWidth]
    exact ⟨_, _, exec_movxb src d s, signedValue, wordResult_of_setReg s d _ s.psr 2⟩
  · have unsignedValue : ((s.regByte src).setWidth 16).toNat = (s.reg src).toNat % 256 := by
      rw [BitVec.toNat_setWidth_of_le (by decide), State.toNat_regByte]
    exact ⟨_, _, exec_movzb src d s, unsignedValue, wordResult_of_setReg s d _ s.psr 2⟩

/-- Settles O25: both are operations of a basic format whose result is the source operand. -/
theorem movCopiesTheSource : Obligations.MovCopiesTheSource := by
  intro src d s
  rw [exec_movb, exec_movw]
  exact ⟨byteResult_spec _ src d s, wordResult_spec _ src d s⟩

end Sys2Proof.Machine

/-! PROOFS of the statements of `41_arithmetic.md`: addition (O27), subtraction (O28), the operations that write no flag (O29),
the flags of the group (O30), and two-word arithmetic (O31). -/

namespace Sys2Proof.Machine

/-! ### Sum and difference as numbers (`41_arithmetic.md` R157; D29, log 29) -/

section values
variable {n : Nat} (a b : BitVec n) (c : Bool)

theorem toNat_addResult : (addResult a b c).toNat = (a.toNat + b.toNat + c.toNat) % 2 ^ n := BitVec.toNat_ofNat _ _

theorem addCarry_iff : addCarry a b c = true ↔ 2 ^ n ≤ a.toNat + b.toNat + c.toNat := decide_eq_true_iff

theorem subBorrow_iff : subBorrow a b c = true ↔ a.toNat < b.toNat + c.toNat := decide_eq_true_iff

/-- The signed and the unsigned value of a bit vector are the same number modulo 2^n. -/
theorem toInt_modEq_toNat (x : BitVec n) : x.toInt ≡ x.toNat [ZMOD (2 ^ n : Nat)] := by
  rw [Int.ModEq, BitVec.toInt_eq_toNat_bmod, Int.bmod_emod]

theorem coe_toNat_ofInt (x : Int) : ((BitVec.ofInt n x).toNat : Int) = x % 2 ^ n := by
  have hpos : (0 : Int) < 2 ^ n := by positivity
  rw [BitVec.toNat_ofInt, Nat.cast_pow, Nat.cast_ofNat, Int.toNat_of_nonneg (Int.emod_nonneg _ hpos.ne')]

theorem coe_toNat_subResult :
    ((subResult a b c).toNat : Int) = (a.toNat - b.toNat - c.toNat : Int) % 2 ^ n := by
  have hmod := ((toInt_modEq_toNat a).sub (toInt_modEq_toNat b)).sub_right (c.toNat : Int)
  rw [Nat.cast_pow, Nat.cast_ofNat] at hmod
  exact (coe_toNat_ofInt _).trans hmod

/-- The low half of the signed product is that of the unsigned product (`41_arithmetic.md` R154). -/
theorem toNat_ofInt_mul : (BitVec.ofInt n (a.toInt * b.toInt)).toNat = a.toNat * b.toNat % 2 ^ n := by
  rw [BitVec.ofInt_mul, BitVec.ofInt_toInt, BitVec.ofInt_toInt, BitVec.toNat_mul]

/-- The sum and its carry together are the whole unsigned sum. -/
theorem addResult_add_carry :
    (addResult a b c).toNat + 2 ^ n * (addCarry a b c).toNat = a.toNat + b.toNat + c.toNat := by
  have ha := a.isLt
  have hb := b.isLt
  have hc := c.toNat_le
  rw [toNat_addResult, addCarry]
  by_cases h : 2 ^ n ≤ a.toNat + b.toNat + c.toNat
  · rw [Nat.mod_eq_sub_mod h, Nat.mod_eq_of_lt (by omega), decide_eq_true h, Bool.toNat_true]
    omega
  · rw [Nat.mod_eq_of_lt (by omega), decide_eq_false h, Bool.toNat_false, Nat.mul_zero, Nat.add_zero]

/-- The difference, what was subtracted and the borrow together give the minuend. -/
theorem subResult_add_subtrahend :
    (subResult a b c).toNat + b.toNat + c.toNat = a.toNat + 2 ^ n * (subBorrow a b c).toNat := by
  have ha : (a.toNat : Int) < 2 ^ n := mod_cast a.isLt
  have hb : (b.toNat : Int) < 2 ^ n := mod_cast b.isLt
  have hc := c.toNat_le
  have hv := coe_toNat_subResult a b c
  rw [subBorrow]
  by_cases h : a.toNat < b.toNat + c.toNat
  · rw [← Int.add_emod_right, Int.emod_eq_of_lt (by omega) (by omega)] at hv
    rw [decide_eq_true h, Bool.toNat_true]
    zify
    omega
  · rw [Int.emod_eq_of_lt (by omega) (by omega)] at hv
    rw [decide_eq_false h, Bool.toNat_false]
    omega

theorem outsideSigned_iff (x : Int) :
    outsideSigned n x = true ↔ x < -(2 ^ (n - 1) : Nat) ∨ (2 ^ (n - 1) : Nat) ≤ x := by
  simp [outsideSigned]

theorem msb_eq_msb_iff (x y : BitVec n) : x.msb = y.msb ↔ (2 ^ (n - 1) ≤ x.toNat ↔ 2 ^ (n - 1) ≤ y.toNat) := by
  rw [BitVec.msb_eq_decide, BitVec.msb_eq_decide, decide_eq_decide]

/-- The signed value by the range of the unsigned one. -/
theorem toInt_eq_ite_half (x : BitVec n) :
    x.toInt = if 2 ^ (n - 1) ≤ x.toNat then (x.toNat : Int) - (2 ^ n : Nat) else x.toNat := by
  simp only [BitVec.toInt_eq_msb_cond, BitVec.msb_eq_decide, decide_eq_true_iff]

/-- The sign-bit form of the overflow of an addition: operands of one sign, a sum of the other. -/
theorem addOverflow_iff (hn : 0 < n) :
    addOverflow a b c = true ↔ a.msb = b.msb ∧ (addResult a b c).msb ≠ a.msb := by
  have hsum := addResult_add_carry a b c
  have ha := a.isLt
  have hb := b.isLt
  have hv := (addResult a b c).isLt
  have hc := c.toNat_le
  have hhalf := Nat.two_pow_pred_add_two_pow_pred hn
  rw [addOverflow, outsideSigned_iff, ne_eq, msb_eq_msb_iff, msb_eq_msb_iff, toInt_eq_ite_half, toInt_eq_ite_half]
  generalize addCarry a b c = carry at hsum
  cases carry <;> simp only [Bool.toNat_true, Bool.toNat_false, mul_one, mul_zero] at hsum <;> split_ifs <;> omega

/-- The sign-bit form of the overflow of a subtraction: operands of two signs, a difference of the subtrahend's. -/
theorem subOverflow_iff (hn : 0 < n) :
    subOverflow a b c = true ↔ a.msb ≠ b.msb ∧ (subResult a b c).msb ≠ a.msb := by
  have hdiff := subResult_add_subtrahend a b c
  have ha := a.isLt
  have hb := b.isLt
  have hv := (subResult a b c).isLt
  have hc := c.toNat_le
  have hhalf := Nat.two_pow_pred_add_two_pow_pred hn
  rw [subOverflow, outsideSigned_iff, ne_eq, ne_eq, msb_eq_msb_iff, msb_eq_msb_iff, toInt_eq_ite_half, toInt_eq_ite_half]
  generalize subBorrow a b c = borrow at hdiff
  cases borrow <;> simp only [Bool.toNat_true, Bool.toNat_false, mul_one, mul_zero] at hdiff <;> split_ifs <;> omega

end values

/-! ### Two words as one number (`41_arithmetic.md` R159) -/

section twoWords
variable (ah al bh bl : Word) (c : Bool)

theorem toNat_append_word (h l : Word) : (h ++ l).toNat = 2 ^ 16 * h.toNat + l.toNat := by
  rw [BitVec.toNat_append, ← Nat.shiftLeft_add_eq_or_of_lt l.isLt, Nat.shiftLeft_eq, Nat.mul_comm]

theorem toInt_append_word (h l : Word) : (h ++ l).toInt = 2 ^ 16 * h.toInt + l.toNat := BitVec.toInt_append

theorem addCarry_append : addCarry (ah ++ al) (bh ++ bl) c = addCarry ah bh (addCarry al bl c) := by
  have hlow := addResult_add_carry al bl c
  have hv := (addResult al bl c).isLt
  rw [Bool.eq_iff_iff, addCarry_iff, addCarry_iff, toNat_append_word, toNat_append_word]
  omega

theorem addResult_append :
    addResult (ah ++ al) (bh ++ bl) c = addResult ah bh (addCarry al bl c) ++ addResult al bl c := by
  have hlow := addResult_add_carry al bl c
  have hhigh := addResult_add_carry ah bh (addCarry al bl c)
  have hwhole := addResult_add_carry (ah ++ al) (bh ++ bl) c
  rw [addCarry_append, toNat_append_word, toNat_append_word] at hwhole
  apply BitVec.eq_of_toNat_eq
  rw [toNat_append_word]
  omega

theorem addOverflow_append : addOverflow (ah ++ al) (bh ++ bl) c = addOverflow ah bh (addCarry al bl c) := by
  have hlow := addResult_add_carry al bl c
  have hv := (addResult al bl c).isLt
  rw [Bool.eq_iff_iff, addOverflow, addOverflow, outsideSigned_iff, outsideSigned_iff, toInt_append_word, toInt_append_word]
  omega

theorem subBorrow_append : subBorrow (ah ++ al) (bh ++ bl) c = subBorrow ah bh (subBorrow al bl c) := by
  have hlow := subResult_add_subtrahend al bl c
  have hv := (subResult al bl c).isLt
  rw [Bool.eq_iff_iff, subBorrow_iff, subBorrow_iff, toNat_append_word, toNat_append_word]
  omega

theorem subResult_append :
    subResult (ah ++ al) (bh ++ bl) c = subResult ah bh (subBorrow al bl c) ++ subResult al bl c := by
  have hlow := subResult_add_subtrahend al bl c
  have hhigh := subResult_add_subtrahend ah bh (subBorrow al bl c)
  have hwhole := subResult_add_subtrahend (ah ++ al) (bh ++ bl) c
  rw [subBorrow_append, toNat_append_word, toNat_append_word] at hwhole
  apply BitVec.eq_of_toNat_eq
  rw [toNat_append_word]
  omega

theorem subOverflow_append : subOverflow (ah ++ al) (bh ++ bl) c = subOverflow ah bh (subBorrow al bl c) := by
  have hlow := subResult_add_subtrahend al bl c
  have hv := (subResult al bl c).isLt
  rw [Bool.eq_iff_iff, subOverflow, subOverflow, outsideSigned_iff, outsideSigned_iff, toInt_append_word, toInt_append_word]
  omega

end twoWords

/-! ### The instructions (`41_arithmetic.md` R150 to R156) -/

section instructions
variable (src : Src) (d : Reg) (s : State)

theorem exec_addb : exec (.addb src d) s = byteArith addResult addCarry addOverflow false src d s := rfl
theorem exec_addw : exec (.addw src d) s = wordArith addResult addCarry addOverflow false src d s := rfl
theorem exec_addcb : exec (.addcb src d) s = byteArith addResult addCarry addOverflow s.psr.c src d s := rfl
theorem exec_addcw : exec (.addcw src d) s = wordArith addResult addCarry addOverflow s.psr.c src d s := rfl
theorem exec_subb : exec (.subb src d) s = byteArith subResult subBorrow subOverflow false src d s := rfl
theorem exec_subw : exec (.subw src d) s = wordArith subResult subBorrow subOverflow false src d s := rfl
theorem exec_subcb : exec (.subcb src d) s = byteArith subResult subBorrow subOverflow s.psr.c src d s := rfl
theorem exec_subcw : exec (.subcw src d) s = wordArith subResult subBorrow subOverflow s.psr.c src d s := rfl
theorem exec_addub : exec (.addub src d) s = byteResult (fun a b => addResult a b false) src d s := rfl
theorem exec_adduw : exec (.adduw src d) s = wordResult (fun a b => addResult a b false) src d s := rfl

theorem exec_mulb : exec (.mulb src d) s = byteResult (fun a b => BitVec.ofInt 8 (a.toInt * b.toInt)) src d s := rfl
theorem exec_mulw : exec (.mulw src d) s = wordResult (fun a b => BitVec.ofInt 16 (a.toInt * b.toInt)) src d s := rfl

end instructions

/-- Settles O27: the sum, its carry and its overflow in numbers, for both widths and either carry-in. -/
theorem addSetsCarryAndOverflow : Obligations.AddSetsCarryAndOverflow := by
  intro src d s cin
  refine ⟨fun mk hmk => ?_, fun mk hmk => ?_⟩
  · have hexec : exec (mk src d) s = byteArith addResult addCarry addOverflow cin src d s := by
      obtain ⟨rfl, rfl⟩ | ⟨rfl, rfl⟩ := hmk
      · exact exec_addb src d s
      · exact exec_addcb src d s
    obtain ⟨t, ht, hres⟩ := byteArith_spec addResult addCarry addOverflow cin src d s
    exact ⟨t, _, _, _, hexec.trans ht, hres, toNat_addResult .., addCarry_iff .., addOverflow_iff _ _ _ (by decide)⟩
  · have hexec : exec (mk src d) s = wordArith addResult addCarry addOverflow cin src d s := by
      obtain ⟨rfl, rfl⟩ | ⟨rfl, rfl⟩ := hmk
      · exact exec_addw src d s
      · exact exec_addcw src d s
    obtain ⟨t, ht, hres⟩ := wordArith_spec addResult addCarry addOverflow cin src d s
    exact ⟨t, _, _, _, hexec.trans ht, hres, toNat_addResult .., addCarry_iff .., addOverflow_iff _ _ _ (by decide)⟩

/-- Settles O28: the difference, its borrow and its overflow in numbers, for both widths and either borrow-in. -/
theorem subSetsBorrowAndOverflow : Obligations.SubSetsBorrowAndOverflow := by
  intro src d s cin
  refine ⟨fun mk hmk => ?_, fun mk hmk => ?_⟩
  · have hexec : exec (mk src d) s = byteArith subResult subBorrow subOverflow cin src d s := by
      obtain ⟨rfl, rfl⟩ | ⟨rfl, rfl⟩ := hmk
      · exact exec_subb src d s
      · exact exec_subcb src d s
    obtain ⟨t, ht, hres⟩ := byteArith_spec subResult subBorrow subOverflow cin src d s
    exact ⟨t, _, _, _, hexec.trans ht, hres, coe_toNat_subResult .., subBorrow_iff .., subOverflow_iff _ _ _ (by decide)⟩
  · have hexec : exec (mk src d) s = wordArith subResult subBorrow subOverflow cin src d s := by
      obtain ⟨rfl, rfl⟩ | ⟨rfl, rfl⟩ := hmk
      · exact exec_subw src d s
      · exact exec_subcw src d s
    obtain ⟨t, ht, hres⟩ := wordArith_spec subResult subBorrow subOverflow cin src d s
    exact ⟨t, _, _, _, hexec.trans ht, hres, coe_toNat_subResult .., subBorrow_iff .., subOverflow_iff _ _ _ (by decide)⟩

/-- Settles O29: the four are operations of a basic format that keep the PSR; the product's low half is the same for the
signed and the unsigned reading. -/
theorem adduAndMulLeaveFlags : Obligations.AdduAndMulLeaveFlags := by
  intro src d s
  rw [exec_addub, exec_adduw, exec_mulb, exec_mulw]
  refine ⟨?_, ?_, ?_, ?_⟩
  · obtain ⟨t, ht, hres⟩ := byteResult_spec (fun a b => addResult a b false) src d s
    exact ⟨t, _, ht, hres, toNat_addResult ..⟩
  · obtain ⟨t, ht, hres⟩ := wordResult_spec (fun a b => addResult a b false) src d s
    exact ⟨t, _, ht, hres, toNat_addResult ..⟩
  · obtain ⟨t, ht, hres⟩ := byteResult_spec (fun a b => BitVec.ofInt 8 (a.toInt * b.toInt)) src d s
    exact ⟨t, _, ht, hres, coe_toNat_ofInt _, toNat_ofInt_mul ..⟩
  · obtain ⟨t, ht, hres⟩ := wordResult_spec (fun a b => BitVec.ofInt 16 (a.toInt * b.toInt)) src d s
    exact ⟨t, _, ht, hres, coe_toNat_ofInt _, toNat_ofInt_mul ..⟩

/-! ### The flags of the group (`41_arithmetic.md` R158) -/

section flags
variable (src : Src) (d : Reg) (s : State)

theorem byteArith_psr (result : Byte → Byte → Bool → Byte) (carry overflow : Byte → Byte → Bool → Bool) (cin : Bool) :
    ∃ t c f, byteArith result carry overflow cin src d s = .next t ∧ t.psr = { s.psr with c := c, f := f } := by
  obtain ⟨t, ht, -, -, -, hpsr, -⟩ := byteArith_spec result carry overflow cin src d s
  exact ⟨t, _, _, ht, hpsr⟩

theorem wordArith_psr (result : Word → Word → Bool → Word) (carry overflow : Word → Word → Bool → Bool) (cin : Bool) :
    ∃ t c f, wordArith result carry overflow cin src d s = .next t ∧ t.psr = { s.psr with c := c, f := f } := by
  obtain ⟨t, ht, -, -, hpsr, -⟩ := wordArith_spec result carry overflow cin src d s
  exact ⟨t, _, _, ht, hpsr⟩

theorem byteResult_psr (op : Byte → Byte → Byte) : ∃ t, byteResult op src d s = .next t ∧ t.psr = s.psr := by
  obtain ⟨t, ht, -, -, -, hpsr, -⟩ := byteResult_spec op src d s
  exact ⟨t, ht, hpsr⟩

theorem wordResult_psr (op : Word → Word → Word) : ∃ t, wordResult op src d s = .next t ∧ t.psr = s.psr := by
  obtain ⟨t, ht, -, -, hpsr, -⟩ := wordResult_spec op src d s
  exact ⟨t, ht, hpsr⟩

end flags

/-- Settles O30: the first eight share the shape that writes C and F, the other four the shape that writes no flag. -/
theorem arithmeticFlags : Obligations.ArithmeticFlags := by
  intro src d s
  constructor
  · simp only [List.forall_mem_cons, exec_addb, exec_addw, exec_addcb, exec_addcw, exec_subb, exec_subw, exec_subcb,
      exec_subcw]
    exact ⟨byteArith_psr .., wordArith_psr .., byteArith_psr .., wordArith_psr .., byteArith_psr .., wordArith_psr ..,
      byteArith_psr .., wordArith_psr .., List.forall_mem_nil _⟩
  · simp only [List.forall_mem_cons, exec_addub, exec_adduw, exec_mulb, exec_mulw]
    exact ⟨byteResult_psr .., wordResult_psr .., byteResult_psr .., wordResult_psr .., List.forall_mem_nil _⟩

/-! ### Two-word arithmetic (`41_arithmetic.md` R159) -/

/-- The two instructions of a two-word operation: the low words first, the high words with the carry of the low ones. -/
theorem wordArith_twice (result : Word → Word → Bool → Word) (carry overflow : Word → Word → Bool → Bool) (s : State) :
    ∃ t u, wordArith result carry overflow false (.reg .r2) .r0 s = .next t ∧
      wordArith result carry overflow t.psr.c (.reg .r3) .r1 t = .next u ∧
      u.reg .r0 = result (s.reg .r0) (s.reg .r2) false ∧
      u.reg .r1 = result (s.reg .r1) (s.reg .r3) (carry (s.reg .r0) (s.reg .r2) false) ∧
      u.psr.c = carry (s.reg .r1) (s.reg .r3) (carry (s.reg .r0) (s.reg .r2) false) ∧
      u.psr.f = overflow (s.reg .r1) (s.reg .r3) (carry (s.reg .r0) (s.reg .r2) false) := by
  obtain ⟨t, ht, htLow, htKept, htPsr, -⟩ := wordArith_spec result carry overflow false (.reg .r2) .r0 s
  obtain ⟨u, hu, huHigh, huKept, huPsr, -⟩ := wordArith_spec result carry overflow t.psr.c (.reg .r3) .r1 t
  have hcarry : t.psr.c = carry (s.reg .r0) (s.reg .r2) false := congrArg Psr.c htPsr
  have hr1 : t.reg .r1 = s.reg .r1 := htKept .r1 (by decide)
  have hr3 : srcWord t (.reg .r3) = s.reg .r3 := htKept .r3 (by decide)
  rw [hr1, hr3, hcarry] at huHigh huPsr
  exact ⟨t, u, ht, hu, (huKept .r0 (by decide)).trans htLow, huHigh, congrArg Psr.c huPsr, congrArg Psr.f huPsr⟩

/-- Settles O31: the two steps give the halves of the whole result and the flags of the whole operation. -/
theorem twoWordArithmetic : Obligations.TwoWordArithmetic := by
  intro s
  constructor
  · obtain ⟨t, u, ht, hu, hlow, hhigh, hc, hf⟩ := wordArith_twice addResult addCarry addOverflow s
    refine ⟨t, u, ht, hu, ?_, ?_, ?_⟩
    · rw [hhigh, hlow, ← addResult_append]
      exact toNat_addResult _ _ false
    · rw [hc, ← addCarry_append]
      exact addCarry_iff _ _ false
    · rw [hf, ← addOverflow_append, addOverflow, outsideSigned_iff]
      simp
  · obtain ⟨t, u, ht, hu, hlow, hhigh, hc, hf⟩ := wordArith_twice subResult subBorrow subOverflow s
    refine ⟨t, u, ht, hu, ?_, ?_, ?_⟩
    · rw [hhigh, hlow, ← subResult_append]
      simpa only [Bool.toNat_false, Nat.cast_zero, sub_zero] using coe_toNat_subResult _ _ false
    · rw [hc, ← subBorrow_append]
      exact subBorrow_iff _ _ false
    · rw [hf, ← subOverflow_append, subOverflow, outsideSigned_iff]
      simp

end Sys2Proof.Machine

/-! PROOFS of the statements of `42_compare.md`: the flags a comparison sets (O32) and how the conditions read them (O33). -/

namespace Sys2Proof.Machine

/-! ### The flags after a comparison (`42_compare.md` R170) -/

section flags
variable {n : Nat} (p : Psr) (a b : BitVec n)

theorem Psr.compared_z : (p.compared a b).z = true ↔ a = b := decide_eq_true_iff
theorem Psr.compared_n : (p.compared a b).n = true ↔ b.toInt < a.toInt := decide_eq_true_iff
theorem Psr.compared_l : (p.compared a b).l = true ↔ b.toNat < a.toNat := decide_eq_true_iff

end flags

/-! ### The instructions (`42_compare.md` R170) -/

theorem exec_cmpb (src1 : Src) (src2 : Reg) (s : State) :
    exec (.cmpb src1 src2) s =
      .next ((s.setPsr (s.psr.compared (srcByte s src1) (s.regByte src2))).advance (srcLen src1)) := rfl

theorem exec_cmpw (src1 : Src) (src2 : Reg) (s : State) :
    exec (.cmpw src1 src2) s =
      .next ((s.setPsr (s.psr.compared (srcWord s src1) (s.reg src2))).advance (srcLen src1)) := rfl

/-- A PSR written and an advance: no register result. -/
theorem noRegResult_of_setPsr (s : State) (p : Psr) (len : Nat) :
    NoRegResult p (nextPc s.pc len) s ((s.setPsr p).advance len) :=
  ⟨fun _ => rfl, rfl, rfl, ⟨fun _ => rfl, rfl⟩, ⟨rfl, rfl, rfl, rfl, rfl, rfl, rfl, rfl, rfl⟩⟩

/-- Settles O32: both write the compared PSR and advance, and its three flags are the three comparisons. -/
theorem compareSetsZnl : Obligations.CompareSetsZnl := by
  intro src1 src2 s
  constructor
  · exact ⟨_, _, _, _, exec_cmpb src1 src2 s, noRegResult_of_setPsr s _ _, Psr.compared_z s.psr _ _,
      Psr.compared_n s.psr _ _, Psr.compared_l s.psr _ _⟩
  · exact ⟨_, _, _, _, exec_cmpw src1 src2 s, noRegResult_of_setPsr s _ _, Psr.compared_z s.psr _ _,
      Psr.compared_n s.psr _ _, Psr.compared_l s.psr _ _⟩

/-! ### The conditions by one another (`47_jumps.md` R215)

EQ, HI and GT read one flag each. HS and GE add equality to HI and GT; the other five are the negations of these. -/

section conditions
variable (p : Psr)

theorem condHolds_hs_iff : condHolds .hs p = true ↔ condHolds .hi p = true ∨ condHolds .eq p = true := Bool.or_eq_true_iff
theorem condHolds_ge_iff : condHolds .ge p = true ↔ condHolds .gt p = true ∨ condHolds .eq p = true := Bool.or_eq_true_iff

theorem condHolds_ne : condHolds .ne p = !condHolds .eq p := rfl
theorem condHolds_ls : condHolds .ls p = !condHolds .hi p := rfl
theorem condHolds_le : condHolds .le p = !condHolds .gt p := rfl
theorem condHolds_lo : condHolds .lo p = !condHolds .hs p := (Bool.not_or _ _).symm
theorem condHolds_lt : condHolds .lt p = !condHolds .ge p := (Bool.not_or _ _).symm

variable {p} in
theorem condHolds_iff_not {c c' : Cond} (h : condHolds c' p = !condHolds c p) :
    condHolds c' p = true ↔ ¬ condHolds c p = true := by
  rw [h, Bool.not_eq_true', Bool.eq_false_iff]

end conditions

/-! ### The conditions after a comparison (`42_compare.md` R171) -/

section compared
variable {n : Nat} (p : Psr) (a b : BitVec n)

theorem condHolds_eq_compared : condHolds .eq (p.compared a b) = true ↔ a = b := p.compared_z a b

theorem condHolds_hi_compared : condHolds .hi (p.compared a b) = true ↔ b.toNat < a.toNat := p.compared_l a b

theorem condHolds_gt_compared : condHolds .gt (p.compared a b) = true ↔ b.toInt < a.toInt := p.compared_n a b

/-- Greater or equal as unsigned: equal words are those of equal unsigned value. -/
theorem condHolds_hs_compared : condHolds .hs (p.compared a b) = true ↔ b.toNat ≤ a.toNat := by
  rw [condHolds_hs_iff, condHolds_hi_compared, condHolds_eq_compared, le_iff_lt_or_eq, BitVec.toNat_inj, eq_comm (a := a)]

/-- Greater or equal as signed: equal words are those of equal signed value. -/
theorem condHolds_ge_compared : condHolds .ge (p.compared a b) = true ↔ b.toInt ≤ a.toInt := by
  rw [condHolds_ge_iff, condHolds_gt_compared, condHolds_eq_compared, le_iff_lt_or_eq, BitVec.toInt_inj, eq_comm (a := a)]

theorem condHolds_ne_compared : condHolds .ne (p.compared a b) = true ↔ a ≠ b := by
  rw [condHolds_iff_not (condHolds_ne _), condHolds_eq_compared]

theorem condHolds_ls_compared : condHolds .ls (p.compared a b) = true ↔ a.toNat ≤ b.toNat := by
  rw [condHolds_iff_not (condHolds_ls _), condHolds_hi_compared, not_lt]

theorem condHolds_le_compared : condHolds .le (p.compared a b) = true ↔ a.toInt ≤ b.toInt := by
  rw [condHolds_iff_not (condHolds_le _), condHolds_gt_compared, not_lt]

theorem condHolds_lo_compared : condHolds .lo (p.compared a b) = true ↔ a.toNat < b.toNat := by
  rw [condHolds_iff_not (condHolds_lo _), condHolds_hs_compared, not_le]

theorem condHolds_lt_compared : condHolds .lt (p.compared a b) = true ↔ a.toInt < b.toInt := by
  rw [condHolds_iff_not (condHolds_lt _), condHolds_ge_compared, not_le]

end compared

/-- Settles O33: each condition's reading of the compared PSR, for either width. -/
theorem conditionsAfterCompare : Obligations.ConditionsAfterCompare := by
  intro src1 src2 s
  constructor
  · exact ⟨_, exec_cmpw src1 src2 s, condHolds_eq_compared .., condHolds_ne_compared .., condHolds_hi_compared ..,
      condHolds_ls_compared .., condHolds_lo_compared .., condHolds_hs_compared .., condHolds_gt_compared ..,
      condHolds_le_compared .., condHolds_lt_compared .., condHolds_ge_compared ..⟩
  · exact ⟨_, exec_cmpb src1 src2 s, condHolds_eq_compared .., condHolds_ne_compared .., condHolds_hi_compared ..,
      condHolds_ls_compared .., condHolds_lo_compared .., condHolds_hs_compared .., condHolds_gt_compared ..,
      condHolds_le_compared .., condHolds_lt_compared .., condHolds_ge_compared ..⟩

end Sys2Proof.Machine

/-! PROOFS of the statements of `43_logical.md`: AND, OR and XOR (O34), and saving a condition (O35). -/

namespace Sys2Proof.Machine

/-! ### AND, OR and XOR (`43_logical.md` R176, R177, R179) -/

section instructions
variable (src : Src) (d : Reg) (s : State)

theorem exec_andb : exec (.andb src d) s = byteResult (· &&& ·) src d s := rfl
theorem exec_andw : exec (.andw src d) s = wordResult (· &&& ·) src d s := rfl
theorem exec_orb : exec (.orb src d) s = byteResult (· ||| ·) src d s := rfl
theorem exec_orw : exec (.orw src d) s = wordResult (· ||| ·) src d s := rfl
theorem exec_xorb : exec (.xorb src d) s = byteResult (· ^^^ ·) src d s := rfl
theorem exec_xorw : exec (.xorw src d) s = wordResult (· ^^^ ·) src d s := rfl

end instructions

/-- Settles O34: the six are operations of a basic format that keep the PSR. -/
theorem logicalBitByBit : Obligations.LogicalBitByBit := by
  intro src d s
  rw [exec_andb, exec_andw, exec_orb, exec_orw, exec_xorb, exec_xorw]
  exact ⟨byteResult_spec (· &&& ·) src d s, wordResult_spec (· &&& ·) src d s, byteResult_spec (· ||| ·) src d s,
    wordResult_spec (· ||| ·) src d s, byteResult_spec (· ^^^ ·) src d s, wordResult_spec (· ^^^ ·) src d s⟩

/-! ### Scond (`43_logical.md` R178) -/

/-- Each of the fourteen mnemonics saves the condition it names. -/
theorem exec_scond (c : Cond) (d : Reg) (s : State) : exec (scond c d) s = saveCondition c d s := by
  cases c <;> rfl

/-- Settles O35: saving a condition writes the whole register, whichever of the fourteen it is. -/
theorem scondSavesTheCondition : Obligations.ScondSavesTheCondition := by
  intro c d s
  rw [exec_scond]
  exact saveCondition_spec c d s

end Sys2Proof.Machine

/-! PROOFS of the statements of `44_shifts.md`: shifts by a count in range (O36) and by one out of range (O37). -/

namespace Sys2Proof.Machine

/-! ### The shifts in numbers (`44_shifts.md` R190 to R192) -/

/-- A count in range (`44_shifts.md` R190). -/
theorem countOutOfRange_eq_false_iff {n : Nat} {k : Int} :
    countOutOfRange n k = false ↔ -((n : Int) - 1) ≤ k ∧ k ≤ (n : Int) - 1 := by
  rw [countOutOfRange, Bool.or_eq_false_iff, decide_eq_false_iff_not, decide_eq_false_iff_not, not_lt, not_lt]

section values
variable {n : Nat} (v free : BitVec n) {k : Int}

theorem arithShift_of_nonneg (hr : countOutOfRange n k = false) (hk : 0 ≤ k) : arithShift v k free = v <<< k.toNat := by
  simp [arithShift, hr, hk]

theorem arithShift_of_neg (hr : countOutOfRange n k = false) (hk : k < 0) :
    arithShift v k free = v.sshiftRight (-k).toNat := by
  simp [arithShift, hr, hk.not_ge]

theorem logicShift_of_nonneg (hr : countOutOfRange n k = false) (hk : 0 ≤ k) : logicShift v k free = v <<< k.toNat := by
  simp [logicShift, hr, hk]

theorem logicShift_of_neg (hr : countOutOfRange n k = false) (hk : k < 0) :
    logicShift v k free = v >>> (-k).toNat := by
  simp [logicShift, hr, hk.not_ge]

theorem toNat_arithShift_of_nonneg (hr : countOutOfRange n k = false) (hk : 0 ≤ k) :
    (arithShift v k free).toNat = v.toNat * 2 ^ k.toNat % 2 ^ n := by
  rw [arithShift_of_nonneg v free hr hk, BitVec.toNat_shiftLeft, Nat.shiftLeft_eq]

/-- The sign fill makes the right shift a floor division of the signed value. -/
theorem toInt_arithShift_of_neg (hr : countOutOfRange n k = false) (hk : k < 0) :
    (arithShift v k free).toInt = v.toInt / 2 ^ (-k).toNat := by
  rw [arithShift_of_neg v free hr hk, BitVec.toInt_sshiftRight, Int.shiftRight_eq_div_pow, Nat.cast_pow, Nat.cast_ofNat]

theorem toNat_logicShift_of_nonneg (hr : countOutOfRange n k = false) (hk : 0 ≤ k) :
    (logicShift v k free).toNat = v.toNat * 2 ^ k.toNat % 2 ^ n := by
  rw [logicShift_of_nonneg v free hr hk, BitVec.toNat_shiftLeft, Nat.shiftLeft_eq]

/-- The zero fill makes the right shift a floor division of the unsigned value. -/
theorem toNat_logicShift_of_neg (hr : countOutOfRange n k = false) (hk : k < 0) :
    (logicShift v k free).toNat = v.toNat / 2 ^ (-k).toNat := by
  rw [logicShift_of_neg v free hr hk, BitVec.toNat_ushiftRight, Nat.shiftRight_eq_div_pow]

end values

/-! ### The instructions (`44_shifts.md` R191, R192) -/

section instructions
variable (count : Src) (d : Reg) (s : State)

theorem exec_ashub : exec (.ashub count d) s = byteShift arithShift count d s := rfl
theorem exec_ashuw : exec (.ashuw count d) s = wordShift arithShift count d s := rfl
theorem exec_lshb : exec (.lshb count d) s = byteShift logicShift count d s := rfl
theorem exec_lshw : exec (.lshw count d) s = wordShift logicShift count d s := rfl

end instructions

/-- Settles O36: each shift writes its result, whose value in numbers is that of the shift at a count in range. -/
theorem shiftInRange : Obligations.ShiftInRange := by
  rintro count d s _ rfl
  rw [exec_ashub, exec_lshb, exec_ashuw, exec_lshw]
  constructor
  · intro hlo hhi
    have hr : countOutOfRange 8 (shiftCount s count) = false := countOutOfRange_eq_false_iff.2 ⟨hlo, hhi⟩
    constructor
    · obtain ⟨t, ht, hres⟩ := byteShift_spec arithShift count d s
      exact ⟨t, _, ht, hres, toNat_arithShift_of_nonneg _ _ hr, toInt_arithShift_of_neg _ _ hr⟩
    · obtain ⟨t, ht, hres⟩ := byteShift_spec logicShift count d s
      exact ⟨t, _, ht, hres, toNat_logicShift_of_nonneg _ _ hr, toNat_logicShift_of_neg _ _ hr⟩
  · intro hlo hhi
    have hr : countOutOfRange 16 (shiftCount s count) = false := countOutOfRange_eq_false_iff.2 ⟨hlo, hhi⟩
    constructor
    · obtain ⟨t, ht, hres⟩ := wordShift_spec arithShift count d s
      exact ⟨t, _, ht, hres, toNat_arithShift_of_nonneg _ _ hr, toInt_arithShift_of_neg _ _ hr⟩
    · obtain ⟨t, ht, hres⟩ := wordShift_spec logicShift count d s
      exact ⟨t, _, ht, hres, toNat_logicShift_of_nonneg _ _ hr, toNat_logicShift_of_neg _ _ hr⟩

/-! ### Completion (`44_shifts.md` R193; D11, log 11) -/

section completion
variable (count : Src) (d : Reg) (s : State)

/-- A byte shift completes at every count, and writes nothing but its destination's low byte. -/
theorem byteShift_completes (op : Byte → Int → Byte → Byte) :
    ∃ t v, byteShift op count d s = .next t ∧ ByteResult d v s.psr (srcLen count) s t :=
  let ⟨t, ht, hres⟩ := byteShift_spec op count d s
  ⟨t, _, ht, hres⟩

/-- A word shift completes at every count, and writes nothing but its destination. -/
theorem wordShift_completes (op : Word → Int → Word → Word) :
    ∃ t v, wordShift op count d s = .next t ∧ WordResult d v s.psr (srcLen count) s t :=
  let ⟨t, ht, hres⟩ := wordShift_spec op count d s
  ⟨t, _, ht, hres⟩

end completion

/-- Settles O37: completion and frame do not depend on the count, so they hold for one out of range, whatever value is
written then. -/
theorem shiftOutOfRangeCompletes : Obligations.ShiftOutOfRangeCompletes := by
  intro count d s k _
  rw [exec_ashub, exec_lshb, exec_ashuw, exec_lshw]
  exact ⟨fun _ => ⟨byteShift_completes count d s arithShift, byteShift_completes count d s logicShift⟩,
    fun _ => ⟨wordShift_completes count d s arithShift, wordShift_completes count d s logicShift⟩⟩

end Sys2Proof.Machine

/-! PROOFS of the statement of `45_bits.md`: the bit test (O38). -/

namespace Sys2Proof.Machine

section bitTest
variable (offset : Src) (src : Reg) (s : State)

/-- TBIT writes the bit it reads to PSR.F and advances the PC (`45_bits.md` R200). -/
theorem exec_tbit :
    exec (.tbit offset src) s = .next ((s.setPsr (s.psr.withF (testedBit s offset src))).advance (srcLen offset)) := rfl

/-- The bit read at an offset in range is the register's own; only above 15 is it the free value (`45_bits.md` R201). -/
theorem testedBit_of_le (hoffset : (srcWord s offset).toNat ≤ 15) :
    testedBit s offset src = (s.reg src).getLsbD (srcWord s offset).toNat :=
  if_pos hoffset

end bitTest

/-- Settles O38: completion and frame do not depend on the offset, so they hold above 15 as well, whatever is read then. -/
theorem tbitCopiesTheBit : Obligations.TbitCopiesTheBit := by
  intro offset src s
  have hframe := noRegResult_of_setPsr s (s.psr.withF (testedBit s offset src)) (srcLen offset)
  exact ⟨_, _, exec_tbit offset src s, hframe, testedBit_of_le offset src s⟩

end Sys2Proof.Machine

/-! PROOFS of the statements of `46_procreg.md`: the codes of the processor registers (O8), their loads (O39) and their
stores (O40). -/

namespace Sys2Proof.Machine

/-! ### The dedicated address registers in numbers (`46_procreg.md` R206, R208) -/

/-- Zeros above a value add nothing, and one 0 bit below doubles it. -/
theorem toNat_zero_append_append_zero (m : Nat) {n : Nat} (x : BitVec n) : (0#m ++ x ++ 0#1).toNat = x.toNat * 2 := by
  simp [BitVec.toNat_append, Nat.shiftLeft_eq]

/-- Clearing bits 17, 16 and 0 of a word rounds it down to an even number. -/
theorem dedicatedOfWord_toNat (v : Word) : (dedicatedOfWord v).toNat = v.toNat / 2 * 2 := by
  have hlt := v.isLt
  have hbits : (dedicatedOfWord v).toNat = _ := toNat_zero_append_append_zero 2 (v.extractLsb' 1 15)
  rw [hbits, BitVec.extractLsb'_toNat, Nat.shiftRight_eq_div_pow]
  omega

theorem wordOfDedicated_toNat (a : Addr) : (wordOfDedicated a).toNat = a.toNat % 2 ^ 16 :=
  BitVec.extractLsb'_toNat 0 16 a

/-! ### LPR (`46_procreg.md` R206, R209, R210) -/

/-- The state after the load of `v` in a processor register: PC, general registers and bytes are those of an instruction without
another result, the core has serialized, and the rest is as the write of the register left it. -/
def ProcRegLoaded (dest : ProcReg) (v : Word) (s t : State) : Prop :=
  t.pc = nextPc s.pc 2 ∧ SameRegs s t ∧ (∀ a : Addr, t.byteAt a = s.byteAt a) ∧ t.unserialized = [] ∧
    SameControl (writeProcReg dest v s) t

theorem writeProcReg_pc (r : ProcReg) (v : Word) (s : State) : (writeProcReg r v s).pc = s.pc := by
  cases r <;> rfl

theorem procRegLoaded_serialize_advance (dest : ProcReg) (v : Word) (s : State) :
    ProcRegLoaded dest v s ((writeProcReg dest v s).serialize.advance 2) :=
  ⟨congrArg (nextPc · 2) (writeProcReg_pc dest v s), State.reg_of_regs (writeProcReg_regs dest v s),
    writeProcReg_byteAt dest v s, rfl, ⟨rfl, rfl, rfl, rfl, rfl, rfl, rfl, rfl, rfl⟩⟩

theorem exec_lpr (src : Reg) (dest : ProcReg) (s : State) :
    exec (.lpr src dest) s = .next ((writeProcReg dest (s.reg src) s).serialize.advance 2) := rfl

/-- Settles O39: the frame is the same for the three registers; what is written is the PSR of the word's bits, or the word
without its bit 0. -/
theorem lprLoads : Obligations.LprLoads := by
  intro src s
  have hframe (dest : ProcReg) := procRegLoaded_serialize_advance dest (s.reg src) s
  refine ⟨?psr, ?intbase, ?isp⟩
  case psr => exact ⟨_, exec_lpr src .psr s, rfl, rfl, rfl, rfl, rfl, rfl, rfl, rfl, rfl, hframe .psr⟩
  case intbase => exact ⟨_, exec_lpr src .intbase s, dedicatedOfWord_toNat (s.reg src), rfl, hframe .intbase⟩
  case isp => exact ⟨_, exec_lpr src .isp s, dedicatedOfWord_toNat (s.reg src), rfl, hframe .isp⟩

/-! ### SPR (`46_procreg.md` R208, R209) -/

theorem exec_spr (src : ProcReg) (d : Reg) (s : State) :
    exec (.spr src d) s = .next ((s.setReg d (readProcReg src s)).advance 2) := rfl

/-- SPR is a word result, the value read. -/
theorem spr_spec (src : ProcReg) (d : Reg) (s : State) :
    ∃ t, exec (.spr src d) s = .next t ∧ WordResult d (readProcReg src s) s.psr 2 s t :=
  ⟨_, exec_spr src d s, wordResult_of_setReg s d (readProcReg src s) s.psr 2⟩

/-- Settles O40: a word result whose value is an image of the PSR, whatever its reserved bits, or the low word of INTBASE or
ISP. -/
theorem sprStores : Obligations.SprStores := by
  intro d s
  refine ⟨?psr, ?intbase, ?isp⟩
  case psr =>
    obtain ⟨t, ht, hres⟩ := spr_spec .psr d s
    exact ⟨t, _, ht, psrImage_image s.psr _, hres⟩
  case intbase =>
    obtain ⟨t, ht, hres⟩ := spr_spec .intbase d s
    exact ⟨t, _, ht, wordOfDedicated_toNat s.intbase, hres⟩
  case isp =>
    obtain ⟨t, ht, hres⟩ := spr_spec .isp d s
    exact ⟨t, _, ht, wordOfDedicated_toNat s.isp, hres⟩

/-! ### The codes (`46_procreg.md` R205) -/

/-- LPR has the processor register's code in field `a`, its source in field `b`. -/
theorem encode_lpr (r : Reg) (p : ProcReg) : encode (.lpr r p) = encodeSp 0b1000#4 p.code r.code := rfl

/-- SPR has the processor register's code in field `a` too, its destination in field `b`. -/
theorem encode_spr (r : Reg) (p : ProcReg) : encode (.spr p r) = encodeSp 0b1001#4 p.code r.code := rfl

/-- Settles O8: each word has the processor register's code in field `a`, and neither instruction looks at the state to
complete. -/
theorem processorRegisterCodes : Obligations.ProcessorRegisterCodes := by
  constructor
  · intro r
    exact ⟨encode_lpr r .psr, encode_lpr r .intbase, encode_lpr r .isp,
      encode_spr r .psr, encode_spr r .intbase, encode_spr r .isp⟩
  · intro r p s
    exact ⟨⟨_, exec_lpr r p s⟩, ⟨_, exec_spr p r s⟩⟩

end Sys2Proof.Machine

/-! PROOFS of the statements of `47_jumps.md` about conditions, branches and jumps: the condition codes (O9), Bcond, BR and
Jcond (O41), linkage (O43, O45) and JUMP (O44). -/

namespace Sys2Proof.Machine

/-! ### The instructions by their conditions (`47_jumps.md` R216 to R219, R231 to R233) -/

section instructions
variable (c : Cond) (disp : Disp) (link target : Reg) (s : State)

/-- Each of the fourteen mnemonics of Bcond branches on the condition it names. -/
theorem exec_bcond : exec (bcond c disp) s = branch (condHolds c s.psr) disp s := by
  cases c <;> rfl

/-- Each of the fourteen mnemonics of Jcond jumps on the condition it names. -/
theorem exec_jcond : exec (jcond c target) s = jump (condHolds c s.psr) target s := by
  cases c <;> rfl

theorem exec_br : exec (.br disp) s = branch true disp s := rfl

theorem exec_jump : exec (.jump target) s = jump true target s := rfl

theorem exec_bal (d : BitVec 17) :
    exec (.bal link d) s =
      .next ((s.setReg link (codePointer (nextPc s.pc 4))).setPc (branchTarget s.pc (d.signExtend 18))) := rfl

theorem exec_jal :
    exec (.jal link target) s =
      .next ((s.setReg link (codePointer (nextPc s.pc 2))).setPc (ofCodePointer (s.reg target))) := rfl

end instructions

/-- Settles O41: BR is a branch taken whatever the flags are, and each mnemonic of Bcond and Jcond a branch or a jump taken on
its condition. -/
theorem branchesAndJumps : Obligations.BranchesAndJumps := by
  intro c disp target s
  rw [exec_bcond, exec_br, exec_jcond]
  exact ⟨branch_spec _ disp s, branch_spec true disp s, jump_spec _ target s⟩

/-! ### Linkage (`47_jumps.md` R218, R232, R234) -/

/-- What BAL and JAL leave: a link, a PC, and the rest unchanged. -/
def Linked (link : Reg) (v : Word) (pc : Addr) (s t : State) : Prop :=
  t.reg link = v ∧ SameRegsBut link s t ∧ t.pc = pc ∧ t.psr = s.psr ∧ SameMemory s t ∧ SameControl s t

theorem linked_setReg_setPc (link : Reg) (v : Word) (pc : Addr) (s : State) :
    Linked link v pc s ((s.setReg link v).setPc pc) :=
  ⟨by simp, fun r h => by simp [State.reg_setReg_other _ _ h], rfl, rfl, ⟨fun _ => rfl, rfl⟩,
    ⟨rfl, rfl, rfl, rfl, rfl, rfl, rfl, rfl, rfl⟩⟩

/-- Settles O43: both write the code pointer of the next instruction and then the PC, from the state before either write. -/
theorem linkAndGo : Obligations.LinkAndGo := by
  intro link target disp s
  exact ⟨⟨_, exec_bal link s disp, linked_setReg_setPc ..⟩, ⟨_, exec_jal link target s, linked_setReg_setPc ..⟩⟩

/-- A jump through a register that holds the code pointer of an address goes to that address. -/
theorem exec_jump_codePointer {u : State} {link : Reg} {pc : Addr} (hpc : pcLegal pc) (hlink : u.reg link = codePointer pc) :
    ∃ v, exec (.jump link) u = .next v ∧ v.pc = pc := by
  obtain ⟨v, hv, -, -, hvpc, -⟩ := jump_spec true link u
  refine ⟨v, hv, hvpc.trans ?_⟩
  rw [if_pos rfl, hlink, ofCodePointer_codePointer hpc]

/-- Settles O45: the link is the code pointer of the next instruction, whose address is a legal PC, so the jump rebuilds it. -/
theorem jumpThroughTheLinkReturns : Obligations.JumpThroughTheLinkReturns := by
  intro link target disp s t u hkept
  constructor
  · intro hbal
    cases (exec_bal link s disp).symm.trans hbal
    exact exec_jump_codePointer (pcLegal_nextPc s.pc 4) (by simpa using hkept)
  · intro hjal
    cases (exec_jal link target s).symm.trans hjal
    exact exec_jump_codePointer (pcLegal_nextPc s.pc 2) (by simpa using hkept)

/-! ### The codes of the conditions (`47_jumps.md` R215, `43_logical.md` R178) -/

section codes
variable (c : Cond)

theorem encode_scond (r : Reg) : encode (scond c r) = encodeSp 0b0111#4 (condCode c) r.code := by
  cases c <;> rfl

theorem encode_bcond (disp : Disp) : encode (bcond c disp) = encodeBranch (condCode c) disp := by
  cases c <;> rfl

theorem encode_jcond (r : Reg) : encode (jcond c r) = encodeJump 0#1 (condCode c) r := by
  cases c <;> rfl

end codes

/-- JUMP has the format of Jcond, with the code that no condition has. -/
theorem encode_jump (r : Reg) : encode (.jump r) = encodeJump 0#1 0b1110#4 r := rfl

/-- Settles O44: the word of Jcond's format, and a jump that is taken whatever the flags are. -/
theorem jumpLoadsThePc : Obligations.JumpLoadsThePc :=
  ⟨fun target s => ⟨encode_jump target, jump_spec true target s⟩, encode_jump .ra, encode_jump .r3⟩

/-! ### The truth of the conditions and their pairs (`47_jumps.md` R215) -/

/-- The condition of the other code of a pair, the two codes that differ in their lowest bit. -/
def negatedCond : Cond → Cond
  | .eq => .ne
  | .ne => .eq
  | .cs => .cc
  | .cc => .cs
  | .hi => .ls
  | .ls => .hi
  | .gt => .le
  | .le => .gt
  | .fs => .fc
  | .fc => .fs
  | .lo => .hs
  | .hs => .lo
  | .lt => .ge
  | .ge => .lt

theorem condCode_negatedCond (c : Cond) : condCode (negatedCond c) = condCode c ^^^ 0b0001#4 := by
  cases c <;> rfl

/-- The second of a pair is the first negated: by its definition, or, for a condition of two flags, by De Morgan. -/
theorem condHolds_negatedCond (c : Cond) (p : Psr) : condHolds (negatedCond c) p = !condHolds c p := by
  cases c with
  | eq | cs | hi | gt | fs => rfl
  | ne | cc | ls | le | fc => exact (Bool.not_not _).symm
  | lo => exact (Bool.not_not _).symm.trans (congrArg _ (condHolds_lo p).symm)
  | hs => exact condHolds_lo p
  | lt => exact (Bool.not_not _).symm.trans (congrArg _ (condHolds_lt p).symm)
  | ge => exact condHolds_lt p

section truth
variable (p : Psr)

theorem condHolds_lo_iff : condHolds .lo p = true ↔ p.z = false ∧ p.l = false := by
  rw [and_comm, ← Bool.not_eq_true', ← Bool.not_eq_true']
  exact Bool.and_eq_true_iff

theorem condHolds_lt_iff : condHolds .lt p = true ↔ p.z = false ∧ p.n = false := by
  rw [and_comm, ← Bool.not_eq_true', ← Bool.not_eq_true']
  exact Bool.and_eq_true_iff

end truth

/-- Settles O9: the truth table flag by flag, the codes in the three formats, the codes that are no instruction, BR and JUMP,
and the pairs of codes. -/
theorem conditionCodes : Obligations.ConditionCodes := by
  refine ⟨fun p => ?truth, fun c r d m => ?codes, fun r d m => ⟨rfl, rfl, encode_jump r⟩, fun disp r => ?undefined,
    fun disp target s => ⟨exec_br disp s, exec_jump target s⟩,
    fun c => ⟨negatedCond c, condCode_negatedCond c, condHolds_negatedCond c⟩⟩
  case truth =>
    have hnot (flag : Bool) : (!flag) = true ↔ flag = false := iff_of_eq (Bool.not_eq_true' flag)
    exact ⟨.rfl, hnot p.z, .rfl, hnot p.c, .rfl, hnot p.l, .rfl, hnot p.n, .rfl, hnot p.f,
      condHolds_lo_iff p, (condHolds_hs_iff p).trans or_comm, condHolds_lt_iff p, (condHolds_ge_iff p).trans or_comm⟩
  case codes => exact ⟨encode_scond c r, encode_bcond c (.short d), encode_bcond c (.medium m), encode_jcond c r⟩
  case undefined =>
    exact ⟨decodeBranch_eq_none_iff.mpr rfl, decodeJump_eq_none_iff.mpr rfl, decodeScond_eq_none_iff.mpr (by decide),
      decodeScond_eq_none_iff.mpr (by decide)⟩

end Sys2Proof.Machine

/-! PROOFS of the statements of `48_loadstore.md`: the effective addresses (O46), loads (O47), stores (O48), a load after a
store (O50), and where a data reference stops (O51). -/

namespace Sys2Proof.Machine

/-! ### The effective addresses in numbers (`48_loadstore.md` R246 to R249, `20_memory.md` R74) -/

theorem toNat_append_eq_add {m n : Nat} (h : BitVec m) (l : BitVec n) : (h ++ l).toNat = h.toNat * 2 ^ n + l.toNat := by
  rw [BitVec.toNat_append, ← Nat.shiftLeft_add_eq_or_of_lt l.isLt, Nat.shiftLeft_eq]

section addresses
variable (s : State) (base : Reg) (d : BitVec 5) (disp : Addr)

/-- A short displacement cannot carry a 16-bit base out of the 18 bits of an address. -/
theorem effAddr_relShort_toNat : (effAddr s (.relShort base d)).toNat = (s.reg base).toNat + d.toNat := by
  have hbase := (s.reg base).isLt
  have hd := d.isLt
  rw [effAddr, BitVec.toNat_add, BitVec.toNat_setWidth_of_le (by decide), BitVec.toNat_setWidth_of_le (by decide)]
  omega

theorem effAddr_relMedium_toNat :
    (effAddr s (.relMedium base disp)).toNat = ((s.reg base).toNat + disp.toNat) % 2 ^ 18 := by
  rw [effAddr, BitVec.toNat_add, BitVec.toNat_setWidth_of_le (by decide)]

/-- Bits 17 and 16 of a far-relative base are bits 1 and 0 of the pair's second register. -/
theorem effAddr_farRel_toNat :
    (effAddr s (.farRel base disp)).toNat =
      ((s.reg (nextReg base)).toNat % 4 * 2 ^ 16 + (s.reg base).toNat + disp.toNat) % 2 ^ 18 := by
  have hpair : ((s.reg (nextReg base)).extractLsb' 0 2 ++ s.reg base : Addr).toNat = _ := toNat_append_eq_add _ _
  rw [effAddr, BitVec.toNat_add, hpair, BitVec.extractLsb'_toNat, Nat.shiftRight_zero]

end addresses

theorem nextReg_code {r : Reg} (h : r ≠ .sp) : (nextReg r).code = r.code + 1#4 := by
  cases r with
  | sp => exact absurd rfl h
  | _ => rfl

/-- Settles O46: each mode in numbers, and the second register of a pair by its code. -/
theorem effectiveAddresses : Obligations.EffectiveAddresses := by
  intro s base d disp
  exact ⟨effAddr_relShort_toNat s base d, effAddr_relMedium_toNat s base disp, effAddr_farRel_toNat s base disp, rfl,
    fun _ => nextReg_code⟩

/-! ### Loads (`48_loadstore.md` R250, `20_memory.md` R62) -/

/-- The little-endian word in numbers (`20_memory.md` R61). -/
theorem State.wordAt_toNat (s : State) (a : Addr) :
    (s.wordAt a).toNat = (s.byteAt a).toNat + 256 * (s.byteAt (a + 1#18)).toNat := by
  have hword : (s.wordAt a).toNat = _ := toNat_append_eq_add (s.byteAt (a + 1#18)) (s.byteAt a)
  omega

section loads
variable {m : Mode} {s : State} (d : Reg)

/-- A byte load that may read its address: a byte result on the state that has made the access. -/
theorem exec_loadb_spec (h : checkAccess s .read (effAddr s m) = .next ()) :
    ∃ t, exec (.loadb m d) s = .next t ∧
      ByteResult d (s.byteAt (effAddr s m)) s.psr (modeLen m) (s.access (.readByte (effAddr s m))) t :=
  ⟨_, execLoadb_next.mpr ⟨h, rfl⟩, byteResult_of_setRegByte (s.access _) d _ s.psr _⟩

/-- A word load that may read its address: a word result on the state that has made the access. -/
theorem exec_loadw_spec (h : checkWord s .read (effAddr s m) = .next ()) :
    ∃ t, exec (.loadw m d) s = .next t ∧
      WordResult d (s.wordAt (effAddr s m)) s.psr (modeLen m) (s.access (.readWord (effAddr s m))) t :=
  ⟨_, execLoadw_next.mpr ⟨h, rfl⟩, wordResult_of_setReg (s.access _) d _ s.psr _⟩

end loads

/-- Settles O47: a load is a register result on the state that has made the access. -/
theorem loadsReadMemory : Obligations.LoadsReadMemory := by
  intro m d s
  constructor
  · exact exec_loadb_spec d
  · intro h
    obtain ⟨t, ht, hres⟩ := exec_loadw_spec d h
    exact ⟨t, _, ht, hres, State.wordAt_toNat s _⟩

/-! ### Stores (`48_loadstore.md` R251, `20_memory.md` R63) -/

/-- The high byte of a word in numbers. -/
theorem toNat_high_byte (v : Word) : (v.extractLsb' 8 8).toNat = v.toNat / 256 := by
  have hlt := v.isLt
  rw [BitVec.extractLsb'_toNat, Nat.shiftRight_eq_div_pow]
  omega

theorem ByteStored.byteAt {a : Addr} {v : Byte} {s t : State} (h : ByteStored a v s t)
    (hmem : isDevice s.memMap a = false) : t.byteAt a = v :=
  h.trans (if_neg (Bool.eq_false_iff.mp hmem))

/-- What a store leaves besides the bytes it writes: the access seen, the PC advanced, and the rest unchanged. -/
def StoreFrame (e : BusAccess) (len : Nat) (s t : State) : Prop :=
  t.bus = e.seen s.memMap ++ s.bus ∧ SameRegs s t ∧ t.psr = s.psr ∧ t.pc = nextPc s.pc len ∧
    SameControl { s with bus := t.bus } t

section stores
variable {r : Reg} {m : Mode} {s t : State}

theorem execStorb_frame (h : execStorb r m s = .next t) :
    StoreFrame (.writeByte (effAddr s m) (s.regByte r)) (modeLen m) s t := by
  obtain ⟨-, rfl⟩ := execStorb_next.mp h
  simp [StoreFrame, SameRegs, SameControl]

theorem execStorw_frame (h : execStorw r m s = .next t) :
    StoreFrame (.writeWord (effAddr s m) (s.reg r)) (modeLen m) s t := by
  obtain ⟨-, rfl⟩ := execStorw_next.mp h
  simp [StoreFrame, SameRegs, SameControl]

theorem execStorb_byteStored (hs : Memory.wf s.mem = true) (h : execStorb r m s = .next t) :
    ByteStored (effAddr s m) (s.regByte r) s t := by
  obtain ⟨-, rfl⟩ := execStorb_next.mp h
  exact byteStored_putByte (s.access _) _ _ hs

theorem execStorw_wordStored (hs : Memory.wf s.mem = true) (h : execStorw r m s = .next t) :
    WordStored (effAddr s m) (s.reg r) s t := by
  obtain ⟨-, rfl⟩ := execStorw_next.mp h
  exact wordStored_putWord (s.access _) _ _ hs

theorem execStorb_byteAt_other (hs : Memory.wf s.mem = true) (h : execStorb r m s = .next t) {a : Addr}
    (ha : a ≠ effAddr s m ∨ isDevice s.memMap a = true) : t.byteAt a = s.byteAt a := by
  obtain ⟨-, rfl⟩ := execStorb_next.mp h
  rcases ha with hne | hdev
  · exact State.byteAt_putByte_other (s.access _) _ hs hne
  · exact State.byteAt_putByte_device (s.access _) _ hs hdev

theorem execStorw_byteAt_other (hs : Memory.wf s.mem = true) (h : execStorw r m s = .next t) {a : Addr}
    (ha : a ≠ effAddr s m ∧ a ≠ effAddr s m + 1#18 ∨ isDevice s.memMap a = true) : t.byteAt a = s.byteAt a := by
  obtain ⟨-, rfl⟩ := execStorw_next.mp h
  exact State.byteAt_putWord_other (s.access _) _ hs ha

end stores

/-- Settles O48: what each store writes, what it leaves, and its frame. -/
theorem storesWriteMemory : Obligations.StoresWriteMemory := by
  intro r m s hs
  rw [← State.regByte_eq_setWidth]
  constructor
  · intro hacc
    obtain ⟨t, ht⟩ : ∃ t, execStorb r m s = .next t := ⟨_, execStorb_next.mpr ⟨hacc, rfl⟩⟩
    exact ⟨t, ht, (execStorb_byteStored hs ht).byteAt, fun _ => execStorb_byteAt_other hs ht, execStorb_frame ht⟩
  · intro hacc
    obtain ⟨t, ht⟩ : ∃ t, execStorw r m s = .next t := ⟨_, execStorw_next.mpr ⟨hacc, rfl⟩⟩
    obtain ⟨hlow, hhigh⟩ := execStorw_wordStored hs ht
    refine ⟨t, ht, fun hmem => ?_, fun hmem => ?_, fun _ => execStorw_byteAt_other hs ht, execStorw_frame ht⟩
    · rw [hlow.byteAt hmem]
      exact BitVec.extractLsb'_toNat 0 8 (s.reg r)
    · rw [hhigh.byteAt hmem]
      exact toNat_high_byte (s.reg r)

/-! ### A load after a store (`48_loadstore.md` R253) -/

/-- Where a word was stored, a word may be read. -/
theorem checkWord_read_of_execStorw {r : Reg} {m : Mode} {s t : State} (h : execStorw r m s = .next t) :
    checkWord t .read (effAddr s m) = .next () := by
  obtain ⟨hacc, -⟩ := execStorw_next.mp h
  obtain ⟨-, hmap, -⟩ := exec_keeps (i := .storw r m) h
  exact (checkWord_congr hmap _ _).trans (checkWord_read_of_write hacc)

/-- Settles O50: the stored word is the one at its address, so its bytes are those there, and both may be read. -/
theorem loadAfterStore : Obligations.LoadAfterStore := by
  intro r d m m' s t hs hstore hmem
  have hword := execStorw_wordStored hs hstore
  have ⟨hlow, hhigh⟩ := hword
  have ⟨hmemLow, hmemHigh⟩ := hmem
  have hread := checkWord_read_of_execStorw hstore
  have ⟨_, hreadLow, hreadHigh⟩ := checkWord_next.mp hread
  refine ⟨fun haddr => ?word, fun haddr => ?low, fun haddr => ?high⟩
  case word =>
    obtain ⟨u, hu, hreg, -⟩ := exec_loadw_spec d (haddr ▸ hread)
    exact ⟨u, hu, by rw [hreg, haddr, hword.wordAt hmem]⟩
  case low =>
    obtain ⟨u, hu, hbyte⟩ := exec_loadb_regByte d (haddr ▸ hreadLow)
    exact ⟨u, hu, by rw [hbyte, haddr, hlow.byteAt hmemLow, ← State.regByte_eq_setWidth]; rfl⟩
  case high =>
    obtain ⟨u, hu, hbyte⟩ := exec_loadb_regByte d (haddr ▸ hreadHigh)
    exact ⟨u, hu, by rw [hbyte, haddr, hhigh.byteAt hmemHigh, toNat_high_byte]⟩

/-! ### Where a data reference stops (`48_loadstore.md` R252; D8, D10, D15) -/

section stops
variable {s : State} {acc : Access} {a : Addr} {m : Mode} {r : Reg} {x : Refusal}

/-- A byte of the reserved range is refused, whatever the platform put there (`20_memory.md` R72; D8, log 8). -/
theorem checkAccess_reserved (hlow : 0x0FC00 ≤ a.toNat) (hhigh : a.toNat ≤ 0x0FFFF) :
    checkAccess s acc a = .refused .reservedRange :=
  if_pos (Bool.and_eq_true_iff.mpr ⟨decide_eq_true hlow, decide_eq_true hhigh⟩)

/-- The byte at 3FFFF hex has no successor (D10, log 10). -/
theorem checkWord_top : checkWord s acc 0x3FFFF#18 = .refused .beyondAddressSpace := if_pos rfl

/-- No access faults: it is allowed or refused. -/
theorem checkWord_refused_of_ne_next (h : checkWord s acc a ≠ .next ()) : ∃ x, checkWord s acc a = .refused x := by
  cases hc : checkWord s acc a with
  | next => exact absurd hc h
  | fault f => cases f
  | refused x => exact ⟨x, rfl⟩

/-- A word with a byte in the reserved range is refused. -/
theorem checkWord_reserved (hlow : 0x0FBFF ≤ a.toNat) (hhigh : a.toNat ≤ 0x0FFFF) :
    ∃ x, checkWord s acc a = .refused x := by
  refine checkWord_refused_of_ne_next fun h => ?_
  obtain ⟨-, hfirst, hsecond⟩ := checkWord_next.mp h
  by_cases hin : 0x0FC00 ≤ a.toNat
  · cases (checkAccess_reserved hin hhigh).symm.trans hfirst
  · cases (checkAccess_reserved (by bv_omega) (by bv_omega)).symm.trans hsecond

theorem andThen_refused {α β : Type} (x : Refusal) (k : α → Res β) : andThen (.refused x) k = .refused x := rfl

theorem exec_loadb_refused (h : checkAccess s .read (effAddr s m) = .refused x) : exec (.loadb m r) s = .refused x := by
  simp only [exec, execLoadb, memRead8, h, andThen_refused]

theorem exec_loadw_refused (h : checkWord s .read (effAddr s m) = .refused x) : exec (.loadw m r) s = .refused x := by
  simp only [exec, execLoadw, memRead16, h, andThen_refused]

theorem exec_storb_refused (h : checkAccess s .write (effAddr s m) = .refused x) : exec (.storb r m) s = .refused x := by
  simp only [exec, execStorb, memWrite8, h, andThen_refused]

theorem exec_storw_refused (h : checkWord s .write (effAddr s m) = .refused x) : exec (.storw r m) s = .refused x := by
  simp only [exec, execStorw, memWrite16, h, andThen_refused]

theorem enter_refused (h : s.isp.toNat < 4) (k : Exc) : enter k s = .refused .interruptStackBounds := if_pos h

theorem exec_retx_refused (h : 0xFFFC < s.isp.toNat) : exec .retx s = .refused .interruptStackBounds := if_pos h

end stops

/-- Settles O51: a data reference is refused as its check is, and the interrupt stack by its pointer. -/
theorem dataReferenceStops : Obligations.DataReferenceStops := by
  intro m r s
  refine ⟨fun haddr => ?top, fun hlow hhigh => ?byte, fun hlow hhigh => ?word, enter_refused, exec_retx_refused⟩
  case top =>
    exact ⟨exec_loadw_refused (haddr ▸ checkWord_top), exec_storw_refused (haddr ▸ checkWord_top)⟩
  case byte =>
    exact ⟨exec_loadb_refused (checkAccess_reserved hlow hhigh), exec_storb_refused (checkAccess_reserved hlow hhigh)⟩
  case word =>
    obtain ⟨x, hx⟩ := checkWord_reserved (s := s) (acc := .read) hlow hhigh
    obtain ⟨y, hy⟩ := checkWord_reserved (s := s) (acc := .write) hlow hhigh
    exact ⟨⟨x, exec_loadw_refused hx⟩, ⟨y, exec_storw_refused hy⟩⟩

end Sys2Proof.Machine

/-! PROOFS of the statement of `49_misc.md`: DI, EI, NOP and WAIT (O52). -/

namespace Sys2Proof.Machine

section misc
variable (s : State)

theorem exec_di : exec .di s = .next ((s.setPsr { s.psr with e := false }).advance 2) := rfl
theorem exec_ei : exec .ei s = .next ((s.setPsr { s.psr with e := true }).advance 2) := rfl
theorem exec_nop : exec .nop s = .next (s.advance 2) := rfl
theorem exec_wait : exec .wait s = .next { s.advance 2 with waiting := true } := rfl

/-- An advance alone: no register result, the PSR kept. -/
theorem noRegResult_advance (len : Nat) : NoRegResult s.psr (nextPc s.pc len) s (s.advance len) :=
  noRegResult_of_setPsr s s.psr len

end misc

/-- Settles O52: DI and EI write the PSR and advance, NOP advances, and WAIT is NOP of a waiting core. -/
theorem miscInstructions : Obligations.MiscInstructions := by
  intro s
  exact ⟨⟨_, exec_di s, noRegResult_of_setPsr s _ 2⟩, ⟨_, exec_ei s, noRegResult_of_setPsr s _ 2⟩,
    ⟨_, exec_nop s, noRegResult_advance s 2⟩, ⟨_, exec_wait s, rfl, noRegResult_advance { s with waiting := true } 2⟩⟩

end Sys2Proof.Machine

/-! PROOFS of the statements of `60_exceptions.md` about the step: which event a step is (O13, O14) and the instruction it
runs (O11, O22, O60). -/

namespace Sys2Proof.Machine

/-! ### A step by its event (`60_exceptions.md` R305) -/

section step
variable {s : State}

theorem step_of_reset (h : nextEvent s = .reset) : step s = .next (warmReset s.tick) := by
  rw [step, h]

theorem step_of_exception {k : Exc} (h : nextEvent s = .exception k) : step s = enter k s.tick := by
  rw [step, h]

theorem step_of_idle (h : nextEvent s = .idle) : step s = .next s.tick := by
  rw [step, h]

theorem step_of_instruction (h : nextEvent s = .instruction) :
    step s = andThen (fetchInstr s.tick.copyTrace) fun i => exec i s.tick.copyTrace := by
  rw [step, h]

end step

/-! ### The event by the requests and the PSR (`60_exceptions.md` R301) -/

section event
variable {s : State}

theorem nextEvent_reset (h : s.sample.reset = true) : nextEvent s = .reset := if_pos h

theorem nextEvent_nmi (hreset : s.sample.reset = false) (h : s.sample.nmi = true) : nextEvent s = .exception .nmi := by
  simp [nextEvent, hreset, h]

theorem nextEvent_maskable (hreset : s.sample.reset = false) (hnmi : s.sample.nmi = false) (hirq : s.sample.irq = true)
    (he : s.psr.e = true) (hi : s.psr.i = true) : nextEvent s = .exception (.maskable s.sample.icuByte) := by
  simp [nextEvent, hreset, hnmi, hirq, he, hi]

theorem nextEvent_ise (hreset : s.sample.reset = false) (hnmi : s.sample.nmi = false)
    (hirq : (s.sample.irq && s.psr.e && s.psr.i) = false) (h : s.sample.ise = true) : nextEvent s = .exception .ise := by
  simp only [nextEvent, hreset, hnmi, hirq, h, if_pos, Bool.false_eq_true, if_false]

/-- With no request that the machine would accept, waiting and then the pending trace trap decide. -/
theorem nextEvent_quiet (h : Quiet s) :
    nextEvent s = if s.waiting then .idle else if s.psr.p then .exception .trc else .instruction := by
  obtain ⟨hreset, hnmi, hirq, hise⟩ := h
  simp only [nextEvent, hreset, hnmi, hirq, hise, Bool.false_eq_true, if_false]

theorem nextEvent_idle (h : Quiet s) (hw : s.waiting = true) : nextEvent s = .idle := by
  rw [nextEvent_quiet h, if_pos hw]

theorem nextEvent_trc (h : Quiet s) (hw : s.waiting = false) (hp : s.psr.p = true) : nextEvent s = .exception .trc := by
  rw [nextEvent_quiet h, if_neg (Bool.eq_false_iff.mp hw), if_pos hp]

theorem nextEvent_instruction (h : Quiet s) (hw : s.waiting = false) (hp : s.psr.p = false) :
    nextEvent s = .instruction := by
  rw [nextEvent_quiet h, if_neg (Bool.eq_false_iff.mp hw), if_neg (Bool.eq_false_iff.mp hp)]

/-- A maskable request is masked by either of E and I (`60_exceptions.md` R290). -/
theorem masked_iff (irq e i : Bool) : (irq && e && i) = false ↔ irq = false ∨ e = false ∨ i = false := by
  rw [Bool.and_eq_false_iff, Bool.and_eq_false_iff, or_assoc]

end event

/-- Settles O13: the event that each clause's requests select, and the step of that event. -/
theorem stepOrder : Obligations.StepOrder := by
  intro s
  refine ⟨fun h => step_of_reset (nextEvent_reset h), fun hreset =>
    ⟨fun h => step_of_exception (nextEvent_nmi hreset h), fun hnmi =>
      ⟨fun ⟨hirq, he, hi⟩ => step_of_exception (nextEvent_maskable hreset hnmi hirq he hi), fun hmask => ?_⟩⟩⟩
  rw [← masked_iff] at hmask
  refine ⟨fun h => step_of_exception (nextEvent_ise hreset hnmi hmask h), fun hise => ?_⟩
  have hquiet : Quiet s := ⟨hreset, hnmi, hmask, hise⟩
  exact ⟨fun hw => step_of_idle (nextEvent_idle hquiet hw), fun hw =>
    ⟨fun hp => step_of_exception (nextEvent_trc hquiet hw hp), fun hp =>
      step_of_instruction (nextEvent_instruction hquiet hw hp)⟩⟩

/-- The event depends on the PSR, the waiting state and the requests, of the maskable one on whether it is admitted. -/
theorem nextEvent_congr {s t : State} (hpsr : t.psr = s.psr) (hwaiting : t.waiting = s.waiting)
    (hreset : t.sample.reset = s.sample.reset) (hnmi : t.sample.nmi = s.sample.nmi)
    (hirq : (t.sample.irq && s.psr.e && s.psr.i) = (s.sample.irq && s.psr.e && s.psr.i))
    (hbyte : t.sample.icuByte = s.sample.icuByte) (hise : t.sample.ise = s.sample.ise) : nextEvent t = nextEvent s := by
  simp only [nextEvent, hpsr, hwaiting, hreset, hnmi, hirq, hbyte, hise]

theorem step_congr {s t : State} (hevent : nextEvent t = nextEvent s) (htick : t.tick = s.tick) : step t = step s := by
  rw [step, step, hevent, htick]

/-- Settles O14: a masked request is admitted as little as none, and the tick drops it with the sample. -/
theorem maskedRequestIgnored : Obligations.MaskedRequestIgnored := by
  intro s x rest hinputs hmask
  have hsample : s.sample = x := by rw [State.sample, hinputs, List.headD_cons]
  have hmasked (irq : Bool) : (irq && s.psr.e && s.psr.i) = false := (masked_iff irq _ _).mpr (.inr hmask)
  have hevent : nextEvent { s with inputs := { x with irq := false } :: rest } = nextEvent s := by
    refine nextEvent_congr rfl rfl ?_ ?_ ((hmasked _).trans (hmasked _).symm) ?_ ?_ <;> rw [hsample] <;> rfl
  refine (step_congr hevent ?_).symm
  simp only [State.tick, hsample, hinputs, List.tail_cons]
  rfl

/-! ### The instruction a step runs (`60_exceptions.md` R305, `20_memory.md` R64, `30_encoding.md` R91) -/

/-- Where nothing was stored since the last serializing operation, a word that may be read is fetched as memory or its device
holds it. -/
theorem fetchWord_serialized {s : State} {a : Addr} (hu : s.unserialized = []) (hacc : checkWord s .read a = .next ()) :
    fetchWord s a = .next (wordOfBytes (s.byteAt a) (s.byteAt (a + 1#18))) :=
  fetchWord_next.mpr ⟨hacc, by rw [fetchByte_serialized hu, fetchByte_serialized hu]⟩

/-- What four bytes decode to: an instruction of the first two, or one of all four. -/
theorem decode_four {b0 b1 b2 b3 : Byte} {i : Instr} {rest : List Byte} (h : decode [b0, b1, b2, b3] = .ok (i, rest)) :
    (isLong (wordOfBytes b0 b1) = false ∧ i = decodeWords (wordOfBytes b0 b1) 0#16) ∨
      (isLong (wordOfBytes b0 b1) = true ∧ rest = [] ∧ i = decodeWords (wordOfBytes b0 b1) (wordOfBytes b2 b3)) := by
  cases hlong : isLong (wordOfBytes b0 b1) with
  | false =>
    simp only [decode, hlong, Bool.false_eq_true, if_false, Except.ok.injEq, Prod.mk.injEq] at h
    exact .inl ⟨rfl, h.1.symm⟩
  | true =>
    simp only [decode, hlong, if_true, Except.ok.injEq, Prod.mk.injEq] at h
    exact .inr ⟨rfl, h.2.symm, h.1.symm⟩

/-- With no unserialized store, what is fetched at the PC is what the bytes there decode to. -/
theorem fetchInstr_of_decode {s : State} {i : Instr} {rest : List Byte} (hu : s.unserialized = [])
    (hdec : decode [s.byteAt s.pc, s.byteAt (s.pc + 1#18), s.byteAt (s.pc + 2#18), s.byteAt (s.pc + 3#18)] = .ok (i, rest))
    (hfirst : checkWord s .read s.pc = .next ())
    (hsecond : rest = [] → s.pc.toNat < 0x1FFFE ∧ checkWord s .read (s.pc + 2#18) = .next ()) :
    fetchInstr s = .next i := by
  refine fetchInstr_next.mpr ⟨_, fetchWord_serialized hu hfirst, ?_⟩
  rcases decode_four hdec with ⟨hshort, hi⟩ | ⟨hlong, hrest, hi⟩
  · exact .inl ⟨hshort, hi⟩
  · obtain ⟨hpc, hacc⟩ := hsecond hrest
    have haddr : s.pc + 2#18 + 1#18 = s.pc + 3#18 := by bv_omega
    exact .inr ⟨hlong, hpc, _, fetchWord_serialized hu hacc, by rw [haddr]; exact hi⟩

/-- Settles O11: the step is one of an instruction, and the fetch sees the bytes the statement decodes. -/
theorem stepRunsTheDecodedInstruction : Obligations.StepRunsTheDecodedInstruction := by
  intro s i rest hquiet hw hp hu hdec hfirst hsecond
  have hfetch : fetchInstr s.tick.copyTrace = .next i := fetchInstr_of_decode hu hdec hfirst hsecond
  rw [step_of_instruction (nextEvent_instruction hquiet hw hp), hfetch, andThen_next_eq]
  rfl

/-- An instruction that neither loads the PSR nor takes a trap keeps T and P. -/
theorem exec_keeps_trace {i : Instr} {s t : State} (hload : loadsPsr i = false) (htrap : entersTrap i = false)
    (h : exec i s = .next t) : t.psr.t = s.psr.t ∧ t.psr.p = s.psr.p := by
  obtain ⟨-, -, -, -, -, htrace⟩ := whoWritesThePsr i s t h hload
  obtain ⟨ht, hp⟩ := not_or.mp (mt htrace (Bool.eq_false_iff.mp htrap))
  exact ⟨not_not.mp ht, not_not.mp hp⟩

/-- Settles O22: T and P are kept as the copy of T left them, and P 1 makes the next quiet step the trace trap. -/
theorem tracedInstructionArmsTheTrap : Obligations.TracedInstructionArmsTheTrap := by
  intro s t i hevent hT hfetch hload htrap hstep
  rw [step_of_instruction hevent, hfetch, andThen_next_eq] at hstep
  obtain ⟨ht, hp⟩ := exec_keeps_trace hload htrap hstep
  have hp1 : t.psr.p = true := hp.trans hT
  exact ⟨ht.trans hT, hp1, fun hquiet hw => step_of_exception (nextEvent_trc hquiet hw hp1)⟩

/-! ### Completion (`60_exceptions.md` R288, R320) -/

/-- Settles O60: each meaning without a data reference or a trap is a next state, whatever the state is. -/
theorem noOtherSynchronousException : Obligations.NoOtherSynchronousException := by
  intro i s hdata htrap hspec
  cases i with
  | loadb | loadw | storb | storw | retx => cases hdata
  | excp | und => cases htrap
  | unspecified words => exact absurd rfl (hspec words)
  | _ => exact ⟨_, rfl⟩

end Sys2Proof.Machine

/-! PROOFS of the statements about exceptions, of `60_exceptions.md` and of the instructions that take and leave them: the
interrupts (O15, O16), the trace trap (O17), EXCP (O18), RETX (O20), and RETX after an entry (O21). -/

namespace Sys2Proof.Machine

/-! ### What an exception saves and what its handler runs with (`60_exceptions.md` R297) -/

theorem savedPsr_of_ne_trc {k : Exc} (h : k ≠ .trc) (p : Psr) : savedPsr k p = p := by
  cases k with
  | trc => exact absurd rfl h
  | _ => rfl

theorem ackCycle_of_trap {k : Exc} (h : excIsInterrupt k = false) : ackCycle k = [] := by
  rw [ackCycle, excAckAddr_of_trap h]
  rfl

/-! ### The exceptions a step takes (`60_exceptions.md` R286, R290 to R292) -/

/-- The tick changes nothing that the entry into an exception needs. -/
theorem readyForEntry_tick {vector : Nat} {s : State} (h : ReadyForEntry vector s) : ReadyForEntry vector s.tick := h

/-- A step whose event is an exception takes it. -/
theorem step_takes_exception {k : Exc} {s : State} (hevent : nextEvent s = .exception k) (hs : Memory.wf s.mem = true)
    (hready : ReadyForEntry (excVector k) s) :
    ∃ t, step s = .next t ∧
      ExceptionTaken (excVector k) (savedPsr k s.psr) (handlerPsr k s.psr) (ackCycle k) s.tick t := by
  obtain ⟨t, ht⟩ := exists_enter (readyForEntry_tick hready)
  exact ⟨t, (step_of_exception hevent).trans ht, exceptionTaken_of_enter (s := s.tick) hs ht⟩

/-- Settles O15: neither request asks E or I. -/
theorem unmaskableInterruptsTaken : Obligations.UnmaskableInterruptsTaken :=
  ⟨fun _ hs hreset hnmi hready => step_takes_exception (k := .nmi) (nextEvent_nmi hreset hnmi) hs hready,
    fun _ hs hreset hnmi hmask hise hready =>
      step_takes_exception (k := .ise) (nextEvent_ise hreset hnmi hmask hise) hs hready⟩

/-- Settles O16: the vector is the byte of the sample. -/
theorem maskableInterruptTaken : Obligations.MaskableInterruptTaken :=
  fun s hs hreset hnmi hirq he hi hready =>
    step_takes_exception (k := .maskable s.sample.icuByte) (nextEvent_maskable hreset hnmi hirq he hi) hs hready

/-- Settles O17: the trace trap is the event of a quiet step that is not waiting, and alone saves another PSR. -/
theorem traceTrapTaken : Obligations.TraceTrapTaken :=
  fun _ hs hquiet hw hp hready => step_takes_exception (k := .trc) (nextEvent_trc hquiet hw hp) hs hready

/-! ### EXCP (`47_jumps.md` R230) -/

theorem exec_excp (vector : BitVec 4) (s : State) : exec (.excp vector) s = enter (excpTrap vector) s := rfl

/-- The traps of EXCP are at the indices its codes name, UND at that of all other codes. -/
theorem excVector_excpTrap (vector : BitVec 4) :
    excVector (excpTrap vector) =
      if vector = 5#4 ∨ vector = 6#4 ∨ vector = 7#4 ∨ vector = 8#4 then vector.toNat else 10 := by
  revert vector
  decide

theorem excpTrap_ne_trc (vector : BitVec 4) : excpTrap vector ≠ .trc := by
  unfold excpTrap
  split <;> nofun

/-- Settles O18: EXCP enters a trap other than the trace trap, which saves the PSR as it is and makes no acknowledge cycle. -/
theorem excpTakesTheTrap : Obligations.ExcpTakesTheTrap := by
  intro vector s index hindex hs hready
  rw [← excVector_excpTrap] at hindex
  subst hindex
  have hk := excIsInterrupt_excpTrap vector
  obtain ⟨t, ht⟩ := exists_enter hready
  have htaken := exceptionTaken_of_enter hs ht
  rw [savedPsr_of_ne_trc (excpTrap_ne_trc vector), handlerPsr_of_trap hk, ackCycle_of_trap hk] at htaken
  exact ⟨t, (exec_excp vector s).trans ht, htaken⟩

/-! ### RETX (`47_jumps.md` R235) -/

theorem exec_retx (s : State) : exec .retx s = returnFromException s := rfl

/-- Settles O20: the popped state field by field, as `returnFromException_next` gives it. -/
theorem retxPopsPcAndPsr : Obligations.RetxPopsPcAndPsr := by
  intro s hisp hpc hpsr
  refine ⟨_, (exec_retx s).trans (returnFromException_next.mpr ⟨hisp, hpc, hpsr, rfl⟩), ?_⟩
  exact ⟨rfl, rfl, rfl, rfl, rfl, rfl, rfl, rfl, rfl, rfl, rfl, rfl, fun _ => rfl, fun _ => rfl, rfl, rfl, rfl, rfl, rfl, rfl,
    rfl, rfl⟩

/-! ### RETX after an entry (`60_exceptions.md` R306) -/

section roundTrip
variable {k : Exc} {s t : State}

/-- The words an entry pushes may be popped: what can be written can be read. -/
theorem checkWord_frame_of_enter (h : enter k s = .next t) :
    checkWord t .read t.isp = .next () ∧ checkWord t .read (t.isp + 2#18) = .next () := by
  obtain ⟨-, hlow, hhigh, -⟩ := enter_next.mp h
  obtain ⟨-, -, hmap, -⟩ := enter_keeps h
  obtain ⟨-, hisp⟩ := enter_isp h
  rw [checkWord_congr hmap, checkWord_congr hmap, hisp]
  exact ⟨checkWord_read_of_write hlow, checkWord_read_of_write hhigh⟩

/-- The words an entry pushes in memory are those RETX finds: the code pointer, and an image of the saved PSR above it. -/
theorem wordAt_frame_of_enter (hs : Memory.wf s.mem = true) (hlow : WordInMemory s (s.isp - 4#18))
    (hhigh : WordInMemory s (s.isp - 2#18)) (h : enter k s = .next t) :
    t.wordAt t.isp = codePointer s.pc ∧ Psr.ofImage (t.wordAt (t.isp + 2#18)) = savedPsr k s.psr := by
  obtain ⟨hisp, ⟨image, himage, hpc, hpsr, -⟩, -⟩ := exceptionTaken_of_enter hs h
  obtain ⟨-, haddr, -⟩ := frame_addresses s.isp
  rw [hisp, haddr, hpc.wordAt hlow, hpsr.wordAt hhigh]
  exact ⟨rfl, Psr.ofImage_of_psrImage himage⟩

end roundTrip

/-- Settles O21: RETX may pop the two words that the entry pushed, and finds them as they were pushed. -/
theorem entryThenRetxRestores : Obligations.EntryThenRetxRestores := by
  intro k s t hlegal hlow hhigh h
  have ⟨hpcLegal, hispLegal, _, hs, _⟩ := hlegal
  obtain ⟨h4, hisp⟩ := enter_isp h
  obtain ⟨hintbase, -⟩ := enter_keeps h
  obtain ⟨hreadPc, hreadPsr⟩ := checkWord_frame_of_enter h
  obtain ⟨hpc, hpsr⟩ := wordAt_frame_of_enter hs hlow hhigh h
  have hbound : t.isp.toNat ≤ 0xFFFC := by
    rw [dedicatedLegal_iff] at hispLegal
    bv_omega
  refine ⟨_, (exec_retx t).trans (returnFromException_next.mpr ⟨hbound, hreadPc, hreadPsr, rfl⟩), ?pc, ?isp, ?regs, hintbase,
    fun hk => ?trc, fun hk => ?other, fun a => rfl⟩
  case pc => exact (congrArg ofCodePointer hpc).trans (ofCodePointer_codePointer hpcLegal)
  case isp =>
    change t.isp + 4#18 = s.isp
    rw [hisp, BitVec.sub_add_cancel]
  case regs => exact State.reg_of_regs (t := t) (enter_regs h)
  case trc =>
    subst hk
    exact hpsr
  case other => exact hpsr.trans (savedPsr_of_ne_trc hk s.psr)

end Sys2Proof.Machine

/-! PROOFS of the statement of `70_reset_and_hazards.md` about reset: what a reset request saves and sets (O24). -/

namespace Sys2Proof.Machine

/-- R0 keeps where the machine was, R1 in which state (`70_reset_and_hazards.md` R341). -/
theorem warmReset_r0 (s : State) : (warmReset s).reg .r0 = codePointer s.pc := rfl
theorem warmReset_r1 (s : State) : (warmReset s).reg .r1 = s.psr.image (Config.freeReservedBits s.draws) := rfl

/-- A byte of memory is the same after a reset, the step boundary's tick included. -/
theorem warmReset_tick_byteAt (s : State) {a : Addr} (h : isDevice s.memMap a = false) :
    (warmReset s.tick).byteAt a = s.byteAt a := State.byteAt_tick s h

/-- Settles O24: the reset signal comes before every other event, and the state it leaves, field by field (`warmReset` alone is
the model's reset). -/
theorem warmReset_of_request : Obligations.WarmReset := by
  intro s h
  have hr1 : PsrImage s.psr ((warmReset s.tick).reg .r1) := by
    rw [warmReset_r1]
    exact psrImage_image s.psr _
  exact ⟨warmReset s.tick, step_of_reset (nextEvent_reset h), warmReset_r0 s.tick, hr1, warmReset_pc _, warmReset_psr _,
    warmReset_cfg _, warmReset_waiting _, warmReset_isp _, warmReset_intbase _, warmReset_bus _, warmReset_memMap _,
    fun _ => warmReset_tick_byteAt s⟩

end Sys2Proof.Machine
